-- ==== Sys2Proof/Word.lean ====
section
/-! DEFINITION. The bit vectors of GDD, one name per kind of value (spec R15, R43, R66, R67). Bit 0 is the least
significant bit everywhere (R13); there is no byte order (R43). -/

namespace Sys2Proof

/-- One byte: of the model's own instruction carrier (log 5), of the report's modifier (R69), and, as the model's choice
(log 22), of a keycode. -/
abbrev Byte := BitVec 8

/-- The sample index `S`, unsigned (R62). -/
abbrev Sample := BitVec 4

/-- A GrayCode: the position number the table gives for a sample, an integer in [0, 15] (R16, R66). -/
abbrev Code := BitVec 4

/-- A delta in 4 bits two's complement (R67). -/
abbrev Delta := BitVec 4

/-- The difference `raw` in 5 bits two's complement (R66). -/
abbrev Raw := BitVec 5

/-- The input word `IW[5:0] = {rst, tick, pin4, pin3, pin2, pin1}` of one step (R61). -/
abbrev InputWord := BitVec 6

/-- The control vector `CV[2:0] = {rst, tick, CLR}` (R63). -/
abbrev ControlVector := BitVec 3

end Sys2Proof
end

