-- ==== Sys2Proof/Config.lean ====
section
/-! DEFINITION. What an implementation of GDD fixes, and the free values. The record holds the constants of R7 and
the open parameters of R8, as R26 asks; its one value for this hardware is `Sys2Proof.Machine.config`
(Machine/Params.lean). The free values are opaque: no proof can see what they are. -/

namespace Sys2Proof

/-- The configuration record of R26. Widths (N_PINS, CODE_W, N_SLOTS of R7) are in the types. -/
structure Config where
  /-- GRAY_TABLE of R7, index 0 first. -/
  grayTable : Vector Code 16
  /-- N_CODES of R7, the size of the cyclic code space. -/
  nCodes : Int
  /-- HALF of R7, the masked boundary distance. -/
  half : Int
  /-- TICK_MS of R7, read by the environment's time gate only (R170). -/
  tickMs : Nat
  /-- KEY_CW_CODE of R8, read by the report of an event only (R69). Its width of 8 bits is a DESIGN CHOICE (log 22). -/
  keyCwCode : Byte
  /-- KEY_CCW_CODE of R8, read by the report of an event only (R69). Its width of 8 bits is a DESIGN CHOICE (log 22). -/
  keyCcwCode : Byte
  /-- RID_KEYBOARD of R8, OPEN, read by no rule. -/
  ridKeyboard : Nat
  /-- RID_MOUSE of R8, OPEN, read by no rule. -/
  ridMouse : Nat
  /-- F_CLK of R8, OPEN, read by no rule. -/
  fClk : Nat
  /-- W_MS of R8, OPEN: the width of the environment's millisecond counter (R169). -/
  wMs : Nat
  /-- DEADLINE0 of R8, OPEN: the first deadline of the environment's time gate (R170). -/
  deadline0 : Nat
  deriving DecidableEq, Repr

/-- The parameters of R8 for which the spec gives neither value nor default, as free values (log 14). -/
structure OpenParams where
  ridKeyboard : Nat
  ridMouse : Nat
  fClk : Nat
  wMs : Nat
  deadline0 : Nat
  deriving DecidableEq, Repr, Inhabited

/-- FREE VALUE (log 14): the open parameters of R8 that have no default. -/
opaque Config.openParams : OpenParams

/-- FREE VALUE (log 3): the input word of step `n` where the environment has placed none (R9: "A model takes the
inputs of every step as free values"). -/
opaque Config.freeInput : Nat → InputWord

/-- FREE VALUE (log 1): the sample of the INIT step that `State.reset` stands after (R29). -/
opaque Config.bootSample : Sample

/-- FREE VALUE (log 2): PREV before the first INIT (R192). -/
opaque Config.powerOnPrev : Code

/-- FREE VALUE (log 2): CLR before the first INIT (R192). -/
opaque Config.powerOnClr : Bool

end Sys2Proof
end

