-- ==== Sys2Proof/Syntax.lean ====
section
/-! DEFINITION. What GDD can be asked to do in one step: the eight rows of spec/opcode_table.json as `Instr`, and
the two shapes they arrive in from outside (R61, R71). -/

namespace Sys2Proof

/-- The levels of the four pins in one step, high = true (R41, R60). -/
structure Pins where
  pin1 : Bool
  pin2 : Bool
  pin3 : Bool
  pin4 : Bool
  deriving DecidableEq, Repr

/-- One constructor per row of spec/opcode_table.json. The first four are the operations of a clock step, selected by
the control vector (R63); a bit of the control vector that does not select (`t`, `c` of the table) is kept as a
field, so that no bit of the word is dropped. The last four are the pure functions with their operand words (R71). -/
inductive Instr where
  /-- INIT, CV = `1tc` (R130). -/
  | init (tick clr : Bool) (pins : Pins)
  /-- HOLD, CV = `00c` (R131); the pins are on the input word and are ignored. -/
  | hold (clr : Bool) (pins : Pins)
  /-- CLEAR, CV = `011` (R132); the pins are on the input word and are ignored. -/
  | clear (pins : Pins)
  /-- DECODE, CV = `010` (R133). -/
  | decode (pins : Pins)
  /-- DIFF, operand word `ppppcccc` (R90). -/
  | diff (prev curr : Code)
  /-- COMPOSE, operand word `dcba` (R110). -/
  | compose (pins : Pins)
  /-- GRAYLUT, operand word `ssss` (R111). -/
  | graylut (s : Sample)
  /-- KEYSEL, operand word `dddd` (R113). -/
  | keysel (delta : Delta)
  deriving DecidableEq, Repr

/-- What the environment presents in one step of the model: a clock cycle of GDD with its input word (R10, R61), or
an evaluation of one of the function blocks on its operand word (R71; the core alone has ports and no clock, R60).
See log 6. -/
inductive Stimulus where
  | clock (iw : InputWord)
  | diff (w : BitVec 8)
  | compose (w : BitVec 4)
  | graylut (w : BitVec 4)
  | keysel (w : BitVec 4)
  deriving DecidableEq, Repr

end Sys2Proof
end

