-- ==== Sys2Proof/WellFormed.lean ====
section
/-! DEFINITION. Which instructions are well formed: all of them, but for KEYSEL of the delta pattern 0b1000, which
"is never produced" (R67) and which spec/93_implementation_defined.md U3 refuses. Every control vector, sample and
operand pair is legal (R64). -/

namespace Sys2Proof

/-- The delta pattern 0b1000, the one of the sixteen that is never produced (R67). -/
def deltaNeverProduced : Delta := 0b1000#4

/-- Every operand is legal (R64) except the delta pattern that cannot come from DIFF (U3). -/
def Instr.wellFormed : Instr → Bool
  | .init _ _ _ => true
  | .hold _ _ => true
  | .clear _ => true
  | .decode _ => true
  | .diff _ _ => true
  | .compose _ => true
  | .graylut _ => true
  | .keysel delta => delta != deltaNeverProduced

end Sys2Proof
end

