-- ==== Sys2Proof/Decode.lean ====
section
/-! DEFINITION. The decoder, total on any bytes, and after it the encoder.

GDD has no instruction stream; its words are the control vector with the sample (R61, R63) and the operand words of
the four functions (R71). The function rows of the table have mask 0 and no opcode, so the words of different rows
overlap. The model therefore carries an instruction in three bytes of its own (log 5):
byte 0 is the word of spec/opcode_table.json (the control vector, or the operand word);
byte 1 is the sample `IW[3:0]` of a clock step, and 0 for a function;
byte 2 says which block the word is presented to: 0 GDD, 1 DIFF, 2 COMPOSE, 3 GRAYLUT, 4 KEYSEL. -/

namespace Sys2Proof

/-- Why bytes are not an instruction. All but the last are about the model's own carrier (log 5); the spec itself has
no reserved or illegal word (R64). -/
inductive Reject where
  /-- The carrier is three bytes. -/
  | length
  /-- Byte 0 of a clock step has a bit above the control vector. -/
  | controlHighBits
  /-- Byte 1 of a clock step has a bit above the sample. -/
  | sampleHighBits
  /-- Byte 0 of a 4-bit operand word has a bit above it. -/
  | operandHighBits
  /-- Byte 1 of a function is not 0. -/
  | strayOperand
  /-- Byte 2 names no block. -/
  | noSuchBlock
  /-- KEYSEL of 0b1000, which U3 of the spec refuses. -/
  | keyselMinusEight
  deriving DecidableEq, Repr

/-- A row of the operation map of R63: the control vector matches if its bits under `mask` are `pattern`. -/
structure ControlRow where
  mnemonic : String
  pattern : ControlVector
  mask : ControlVector
  deriving DecidableEq, Repr

/-- The operation map of R63, match and mask as spec/opcode_table.json has them. -/
def controlRows : List ControlRow :=
  [⟨"INIT", 0b100#3, 0b100#3⟩, ⟨"HOLD", 0b000#3, 0b110#3⟩, ⟨"CLEAR", 0b011#3, 0b111#3⟩, ⟨"DECODE", 0b010#3, 0b111#3⟩]

/-- Whether a control vector falls under a row of the operation map. -/
def controlRowMatches (cv : ControlVector) (row : ControlRow) : Bool := cv &&& row.mask == row.pattern

/-- The pins behind the sample field: `S[3] = pin4 … S[0] = pin1` (R61). -/
def pinsOfSample (s : Sample) : Pins := ⟨s[0], s[1], s[2], s[3]⟩

/-- The sample field of an input word or operand word: `pin4` is bit 3 and `pin1` bit 0 (R61, R71). -/
def sampleOfPins (p : Pins) : Sample :=
  BitVec.ofBool p.pin4 ++ BitVec.ofBool p.pin3 ++ BitVec.ofBool p.pin2 ++ BitVec.ofBool p.pin1

/-- The operation that the control vector `{rst, tick, CLR}` selects (R63): rst wins over tick (D7), and on a tick a
pending clear wins over decoding (R163). Total: each of the eight values selects one operation. -/
def decodeControl (cv : ControlVector) (pins : Pins) : Instr :=
  if cv[2] then .init cv[1] cv[0] pins
  else if !cv[1] then .hold cv[0] pins
  else if cv[0] then .clear pins
  else .decode pins

/-- A clock step: control vector and sample, no bit above either. -/
def decodeClock (word sample : Byte) : Except Reject Instr :=
  if word.toNat ≥ 8 then .error .controlHighBits
  else if sample.toNat ≥ 16 then .error .sampleHighBits
  else .ok (decodeControl (word.setWidth 3) (pinsOfSample (sample.setWidth 4)))

/-- A function with a 4-bit operand word (R71). -/
def decodeOperand4 (word : Byte) (k : BitVec 4 → Except Reject Instr) : Except Reject Instr :=
  if word.toNat ≥ 16 then .error .operandHighBits else k (word.setWidth 4)

/-- KEYSEL's operand word `dddd`; the pattern that never occurs is refused (U3). -/
def decodeKeysel (delta : Delta) : Except Reject Instr :=
  if delta = deltaNeverProduced then .error .keyselMinusEight else .ok (.keysel delta)

/-- A function evaluation: the block that byte 2 names, on its operand word (R71). -/
def decodeFunction (word block : Byte) : Except Reject Instr :=
  if block = 1#8 then .ok (.diff (word.extractLsb' 4 4) (word.extractLsb' 0 4))
  else if block = 2#8 then decodeOperand4 word fun w => .ok (.compose (pinsOfSample w))
  else if block = 3#8 then decodeOperand4 word fun w => .ok (.graylut w)
  else if block = 4#8 then decodeOperand4 word decodeKeysel
  else .error .noSuchBlock

/-- The decoder, total on any bytes. -/
def decode : List Byte → Except Reject Instr
  | [word, sample, block] =>
    if block = 0#8 then decodeClock word sample
    else if sample = 0#8 then decodeFunction word block
    else .error .strayOperand
  | _ => .error .length

/-- `CV[2:0] = {rst, tick, CLR}`: two inputs and one state bit (R63). -/
def controlVector (rst tick clr : Bool) : ControlVector :=
  BitVec.ofBool rst ++ BitVec.ofBool tick ++ BitVec.ofBool clr

/-- Byte 0 of a clock step: the control vector (R63). -/
def controlByte (rst tick clr : Bool) : Byte := (controlVector rst tick clr).setWidth 8

/-- A 4-bit field as a byte. -/
def nibbleByte (v : BitVec 4) : Byte := v.setWidth 8

/-- The three bytes of a clock step. -/
def clockBytes (rst tick clr : Bool) (pins : Pins) : List Byte :=
  [controlByte rst tick clr, nibbleByte (sampleOfPins pins), 0#8]

/-- The bytes of an instruction, from the encodings of R63 and R71. -/
def encode : Instr → List Byte
  | .init tick clr pins => clockBytes true tick clr pins
  | .hold clr pins => clockBytes false false clr pins
  | .clear pins => clockBytes false true true pins
  | .decode pins => clockBytes false true false pins
  | .diff prev curr => [prev ++ curr, 0#8, 1#8]
  | .compose pins => [nibbleByte (sampleOfPins pins), 0#8, 2#8]
  | .graylut s => [nibbleByte s, 0#8, 3#8]
  | .keysel delta => [nibbleByte delta, 0#8, 4#8]

/-- The carrier's three bytes of a number whose bits above `nbits` are dropped: byte 0 lowest. -/
def tableBytes (nbits w : Nat) : List Byte :=
  let v := w % 2 ^ nbits
  [BitVec.ofNat 8 v, BitVec.ofNat 8 (v / 256), BitVec.ofNat 8 (v / 65536)]

/-- The instruction the decoder reads from a word of spec/opcode_table.json, bit 0 the least significant bit of its
first byte. With at most 8 bits the block byte is 0, so the word is read as a control vector (log 5); all three bytes
given (24 bits), every row's instructions can be read. -/
def decodeTableWord (nbits w : Nat) : Option Instr :=
  if nbits > 24 then none else (decode (tableBytes nbits w)).toOption

end Sys2Proof
end

