-- ==== Sys2Proof/Machine/Events.lean ====
section
/-! DEFINITION. The events of GDD, their encoding on `ev`, and the keyboard report each asks the environment for. -/

namespace Sys2Proof.Machine

/-- The four events; each step raises exactly one (R68). -/
inductive Event where
  | none
  | pressCw
  | pressCcw
  | release
  deriving DecidableEq, Repr

/-- The two wires `ev[1:0]` (R68). -/
def Event.bits : Event → BitVec 2
  | .none => 0b00#2
  | .pressCw => 0b01#2
  | .pressCcw => 0b10#2
  | .release => 0b11#2

/-- PRESS_CW or PRESS_CCW: the events that send a key (R68). -/
def Event.isPress : Event → Bool
  | .none => false
  | .pressCw => true
  | .pressCcw => true
  | .release => false

/-- A keyboard report: "a fixed-size (6-slot) keycode array and modifier byte" (R69). The spec says byte of the modifier
only: that a keycode, and so each of the six slots, has 8 bits is the model's DESIGN CHOICE (log 22). -/
structure Report where
  modifier : Byte
  slots : Vector Byte 6
  deriving DecidableEq, Repr

/-- A report with one keycode, in slot 0, the rest 0 (R69, D17). -/
def Report.oneKey (keycode : Byte) : Report := ⟨0#8, #v[keycode, 0#8, 0#8, 0#8, 0#8, 0#8]⟩

/-- The report with no key: modifier and all six slots 0 (R69). -/
def Report.noKey : Report := ⟨0#8, #v[0#8, 0#8, 0#8, 0#8, 0#8, 0#8]⟩

/-- The report that an event asks the environment to send; NONE causes no call (R69). No step reads it. -/
def Event.report (cfg : Config) : Event → Option Report
  | .none => Option.none
  | .pressCw => some (Report.oneKey cfg.keyCwCode)
  | .pressCcw => some (Report.oneKey cfg.keyCcwCode)
  | .release => some Report.noKey

end Sys2Proof.Machine
end

