-- ==== Sys2Proof/Machine/Flags.lean ====
section
/-! DEFINITION. The tests on a delta and the one stored flag, CLR (R25). There are no condition codes: the tests are
used in the step that computes them and are not kept. -/

namespace Sys2Proof.Machine

/-- `delta < 0` is `delta[3] = 1` (R67). -/
def deltaNegative (delta : Delta) : Bool := delta[3]

/-- `delta > 0` is `delta[3] = 0 and delta != 0b0000` (R67). -/
def deltaPositive (delta : Delta) : Bool := !delta[3] && delta != 0#4

/-- CLR after a DECODE: `1 if delta != 0 else 0` (R133). -/
def clrAfterDecode (delta : Delta) : Bool := delta != 0#4

end Sys2Proof.Machine
end

