-- ==== Sys2Proof/Machine/Operands.lean ====
section
/-! DEFINITION. The operand forms of GDD: the fields of the input word (R61), the sample (R62, R110), the operands of
the subtraction (R66). -/

namespace Sys2Proof.Machine

/-- `IW[5]`, the synchronous reset input, active high (R60, R61). -/
def inputRst (iw : InputWord) : Bool := iw[5]

/-- `IW[4]`, the poll tick (R60, R61). -/
def inputTick (iw : InputWord) : Bool := iw[4]

/-- `IW[3:0]`, the sample field (R61). -/
def inputSample (iw : InputWord) : Sample := iw.extractLsb' 0 4

/-- One pin as a 4-bit number, 0 or 1. -/
def pinBit (pin : Bool) : Sample := (BitVec.ofBool pin).setWidth 4

/-- COMPOSE (R110), by the document's formula `pin1 | pin2<<1 | pin3<<2 | pin4<<3` (R62). -/
def compose (p : Pins) : Sample :=
  pinBit p.pin1 ||| (pinBit p.pin2 <<< 1) ||| (pinBit p.pin3 <<< 2) ||| (pinBit p.pin4 <<< 3)

/-- `raw = zext_5(curr) − zext_5(prev)`, the difference on 5 wires (R66). -/
def rawBits (prev curr : Code) : Raw := curr.setWidth 5 - prev.setWidth 5

end Sys2Proof.Machine
end

