-- ==== Sys2Proof/Machine/Params.lean ====
section
/-! DEFINITION. The configuration of this hardware: the constants of R7 with the document's values, the open
parameters of R8. -/

namespace Sys2Proof.Machine

/-- The constants of R7 (taken as normative although unaudited, log 11). The two key codes are the defaults of R8,
PRESUMED from general knowledge (G1, log 14); no step reads them. The parameters without a default are free values. -/
def config : Config where
  grayTable := #v[10, 11, 9, 8, 13, 12, 14, 15, 5, 4, 6, 7, 2, 3, 1, 0]
  nCodes := 16
  half := 8
  tickMs := 10
  keyCwCode := 0x31#8
  keyCcwCode := 0x30#8
  ridKeyboard := Config.openParams.ridKeyboard
  ridMouse := Config.openParams.ridMouse
  fClk := Config.openParams.fClk
  wMs := Config.openParams.wMs
  deadline0 := Config.openParams.deadline0

end Sys2Proof.Machine
end

