-- ==== Sys2Proof/Machine/Functions.lean ====
section
/-! DEFINITION. The pure functions GRAYLUT, DIFF and KEYSEL (COMPOSE is an operand form, Machine/Operands.lean). Each
is total and reads nothing but its operands (R101, R111, R113). -/

namespace Sys2Proof.Machine

/-- `MemRead(a, 1)`: entry `a` of the table ROM, the only memory of GDD (R14, R40). Every 4-bit address is legal
(R44) and reading has no effect (R45). -/
def memRead (a : BitVec 4) : Code := config.grayTable[a.toNat]'a.isLt

/-- GRAYLUT: the code of a sample (R111). -/
def graylut (s : Sample) : Code := memRead s

/-- `raw = curr − prev` as an integer, never reduced (R90, R91, R94; the order is log 8). -/
def rawDiff (prev curr : Code) : Int := (curr.toNat : Int) - (prev.toNat : Int)

/-- The five lines of R90 after the subtraction: the boundary is tested first (R94 f), then the two wraps. -/
def wrapRaw (raw : Int) : Int :=
  if raw = 0 ∨ raw = config.half ∨ raw = -config.half then 0
  else if raw > config.half then raw - config.nCodes
  else if raw < -config.half then raw + config.nCodes
  else raw

/-- DIFF (R90): the signed result in 4 bits two's complement (R67). -/
def diff (prev curr : Code) : Delta := BitVec.ofInt 4 (wrapRaw (rawDiff prev curr))

/-- The equivalent hardware form of R92: a 4-bit subtractor with the pattern 0b1000 masked to 0. -/
def diffHardware (prev curr : Code) : Delta :=
  let d := curr - prev
  if d = 0b1000#4 then 0b0000#4 else d

/-- KEYSEL (R113): the event of the sign of a delta. -/
def keysel (delta : Delta) : Event :=
  if deltaPositive delta then .pressCw
  else if deltaNegative delta then .pressCcw
  else .none

end Sys2Proof.Machine
end

