-- ==== Sys2Proof/Machine/State.lean ====
section
/-! DEFINITION. The state of GDD, the reasons a step can stop, and the state at power-on and after reset.

The spec's state is PREV and CLR (R20, R21) and the explicit un-initialised state of R192. The other two fields are the
model's own: the environment's pending inputs and the step counter (log 3). No output is kept: S, curr, raw, delta and
ev are wires, and "A model must not add them to the state" (R22); what a step shows is a function of the state before
it (Machine/Outputs.lean, Machine/Perform.lean). There is no program counter, no memory and no control register (R24,
R26, R42). -/

namespace Sys2Proof.Machine

/-- The machine. -/
structure State where
  /-- PREV, the code of the most recent decoded sample (R20). -/
  prev : Code
  /-- CLR, "a key-press report was just sent and must be released next tick" (R21): true is KeyDown, false is Idle. -/
  clr : Bool
  /-- Whether an INIT has been taken: before the first one, PREV and CLR are unspecified (R192). -/
  initialised : Bool
  /-- The inputs the environment has placed for the coming steps, oldest first (R72, log 3). -/
  stimulus : List Stimulus
  /-- How many steps have been taken; the argument of the free input (R9, log 3). -/
  cycle : Nat
  deriving DecidableEq, Repr

/-- GDD has no fault: "There is no fault, no trap, no stuck state" (R11, R160). No step raises one, so the type has no
constructor. -/
inductive Fault where
  deriving DecidableEq, Repr

/-- Why a step is refused. Each is safe: the model stops where the spec tells a model to give no meaning. -/
inductive Refusal where
  /-- Raised by an arm of exec whose instruction has no meaning yet; no arm does. Safe. -/
  | notModelled (mnemonic : String)
  /-- Raised by HOLD, CLEAR and DECODE before the first INIT: "gives HOLD, CLEAR and DECODE no meaning in it (refuse)"
  (R192). Safe. -/
  | beforeFirstInit
  /-- Raised by KEYSEL of the pattern 0b1000, which is never produced and which U3 of the spec refuses. Safe. -/
  | keyselMinusEight
  /-- Raised by step when the fetched bytes are rejected by the decoder; with the bytes that step forms, only for
  KEYSEL of 0b1000. Safe. -/
  | rejected (reason : Reject)
  deriving DecidableEq, Repr

/-- Before the first INIT: PREV and CLR are free values, "not zero, not Idle" (R192, log 2). -/
def State.powerOn : State where
  prev := Config.powerOnPrev
  clr := Config.powerOnClr
  initialised := false
  stimulus := []
  cycle := 0

/-- Right after reset. "Reset is the INIT operation, not a constant load" (R29): PREV is the code of the sample of
that step, a free value (log 1), and CLR is 0. -/
def State.reset : State where
  prev := graylut Config.bootSample
  clr := false
  initialised := true
  stimulus := []
  cycle := 1

end Sys2Proof.Machine
end

