-- ==== Sys2Proof/Machine/Outputs.lean ====
section
/-! DEFINITION. What a step shows on the output ports. Outputs are wires (R22): they are a result of the step beside
its next state, as in R134, and no state holds them (log 4). -/

namespace Sys2Proof.Machine

/-- What the ports show in one step. -/
inductive Output where
  /-- The ports of GDD in a clock step (R60, R68, R70). -/
  | gdd (ev : Event) (delta : Delta) (code : Code)
  /-- The result of COMPOSE (R71). -/
  | sample (s : Sample)
  /-- The result of GRAYLUT (R71). -/
  | code (c : Code)
  /-- The result of DIFF (R71). -/
  | delta (d : Delta)
  /-- The result of KEYSEL (R71). -/
  | event (ev : Event)
  deriving DecidableEq, Repr

/-- The two results of a step: the next state, and what the ports show while it is taken (R10, R134). -/
structure Effect where
  state : State
  out : Output
  deriving DecidableEq, Repr

/-- The next state of an effect, or the stop: what the host's step has a place for (log 4). -/
def stateOf : Host.Outcome Effect Fault Refusal → Host.Outcome State Fault Refusal
  | .next e => .next e.state
  | .fault r => .fault r
  | .refused r => .refused r

/-- What the ports show; nothing the spec states where the model stops (R192). -/
def outputOf : Host.Outcome Effect Fault Refusal → Option Output
  | .next e => some e.out
  | .fault _ => Option.none
  | .refused _ => Option.none

end Sys2Proof.Machine
end

