-- ==== Sys2Proof/Machine/Ops.lean ====
section
/-! DEFINITION. The named operations over the state. The writes are those of R14: `PREV <- v`, `CLR <- v`, `ev <- E`.
GDD writes no memory and raises no exception (R42, R160, R164), so there is no operation for either; its one memory is
read by `memRead` (Machine/Functions.lean). -/

namespace Sys2Proof.Machine

/-- `PREV <- v` (R14, R20). -/
def State.writePrev (v : Code) (s : State) : State := { s with prev := v }

/-- `CLR <- v` (R14, R21). -/
def State.writeClr (v : Bool) (s : State) : State := { s with clr := v }

/-- The first INIT ends the un-initialised state (R192). -/
def State.markInitialised (s : State) : State := { s with initialised := true }

/-- `ev <- E` in a clock step from `s` to `t`; `code` and `delta` are driven in every one, delta from PREV before the
step (R70). -/
def State.drive (ev : Event) (pins : Pins) (s t : State) : Effect :=
  ⟨t, .gdd ev (diff s.prev (graylut (compose pins))) (graylut (compose pins))⟩

/-- HOLD, CLEAR and DECODE have no meaning before the first INIT (R192). -/
def State.afterInit (s : State) (e : Effect) : Host.Outcome Effect Fault Refusal :=
  if s.initialised then .next e else .refused .beforeFirstInit

end Sys2Proof.Machine
end

