-- ==== Sys2Proof/Machine/Blocks.lean ====
section
/-! DEFINITION. The four pure functions, each evaluated on its operand word with the result shown on its own output
(R71). They read and write no register: "calling it or not changes nothing" (R101), so the next state is the state as it
was and the result is what the step shows. See log 6. -/

namespace Sys2Proof.Machine

/-- DIFF (R90). -/
def performDiff (prev curr : Code) (s : State) : Host.Outcome Effect Fault Refusal :=
  .next ⟨s, .delta (diff prev curr)⟩

/-- COMPOSE (R110). -/
def performCompose (pins : Pins) (s : State) : Host.Outcome Effect Fault Refusal :=
  .next ⟨s, .sample (compose pins)⟩

/-- GRAYLUT (R111). -/
def performGraylut (a : Sample) (s : State) : Host.Outcome Effect Fault Refusal :=
  .next ⟨s, .code (graylut a)⟩

/-- KEYSEL (R113); the pattern 0b1000 cannot come from DIFF and is refused (R67, U3, log 7). -/
def performKeysel (delta : Delta) (s : State) : Host.Outcome Effect Fault Refusal :=
  if delta = deltaNeverProduced then .refused .keyselMinusEight
  else .next ⟨s, .event (keysel delta)⟩

/-- DIFF's next state (R101). -/
def execDiff (prev curr : Code) (s : State) : Host.Outcome State Fault Refusal := stateOf (performDiff prev curr s)

/-- COMPOSE's next state (R110). -/
def execCompose (pins : Pins) (s : State) : Host.Outcome State Fault Refusal := stateOf (performCompose pins s)

/-- GRAYLUT's next state (R111). -/
def execGraylut (a : Sample) (s : State) : Host.Outcome State Fault Refusal := stateOf (performGraylut a s)

/-- KEYSEL's next state (R113). -/
def execKeysel (delta : Delta) (s : State) : Host.Outcome State Fault Refusal := stateOf (performKeysel delta s)

end Sys2Proof.Machine
end

