-- ==== Sys2Proof/Machine/Poller.lean ====
section
/-! DEFINITION. The four operations of a clock step (spec/42_poller.md). In each, PREV and CLR on the right of a write
are the values before the step (R14). Each is written once, as next state and outputs together (`perform…`, the form of
R134); its meaning `exec…` is the next state. Which operation a step takes is the decoder's matter (R63), so none of
them looks at CLR to see whether it is the selected one (log 20). -/

namespace Sys2Proof.Machine

/-- INIT (R130): load PREV from the pins, clear CLR, raise nothing. -/
def performInit (pins : Pins) (s : State) : Host.Outcome Effect Fault Refusal :=
  .next (s.drive .none pins ((s.writePrev (graylut (compose pins))).writeClr false).markInitialised)

/-- HOLD (R131): nothing changes and nothing is raised; the pins only pass through to `code` and `delta` (R70). -/
def performHold (pins : Pins) (s : State) : Host.Outcome Effect Fault Refusal :=
  s.afterInit (s.drive .none pins s)

/-- CLEAR (R132): raise RELEASE and clear CLR; no sample is taken and PREV is kept. -/
def performClear (pins : Pins) (s : State) : Host.Outcome Effect Fault Refusal :=
  s.afterInit (s.drive .release pins (s.writeClr false))

/-- DECODE (R133): raise the event of the difference from PREV, remember a press in CLR, always update PREV. -/
def performDecode (pins : Pins) (s : State) : Host.Outcome Effect Fault Refusal :=
  let curr := graylut (compose pins)
  let delta := diff s.prev curr
  s.afterInit (s.drive (keysel delta) pins ((s.writeClr (clrAfterDecode delta)).writePrev curr))

/-- INIT's next state (R130). -/
def execInit (pins : Pins) (s : State) : Host.Outcome State Fault Refusal := stateOf (performInit pins s)

/-- HOLD's next state (R131). -/
def execHold (pins : Pins) (s : State) : Host.Outcome State Fault Refusal := stateOf (performHold pins s)

/-- CLEAR's next state (R132). -/
def execClear (pins : Pins) (s : State) : Host.Outcome State Fault Refusal := stateOf (performClear pins s)

/-- DECODE's next state (R133). -/
def execDecode (pins : Pins) (s : State) : Host.Outcome State Fault Refusal := stateOf (performDecode pins s)

end Sys2Proof.Machine
end

