-- ==== Sys2Proof/Machine/Dispatch.lean ====
section
/-! DEFINITION. One arm per row of spec/opcode_table.json. -/

namespace Sys2Proof.Machine

def exec (i : Instr) (s : State) : Host.Outcome State Fault Refusal :=
  match i with
  | .init _ _ pins => Sys2Proof.Machine.execInit pins s
  | .hold _ pins => Sys2Proof.Machine.execHold pins s
  | .clear pins => Sys2Proof.Machine.execClear pins s
  | .decode pins => Sys2Proof.Machine.execDecode pins s
  | .diff prev curr => Sys2Proof.Machine.execDiff prev curr s
  | .compose pins => Sys2Proof.Machine.execCompose pins s
  | .graylut a => Sys2Proof.Machine.execGraylut a s
  | .keysel delta => Sys2Proof.Machine.execKeysel delta s

end Sys2Proof.Machine
end

