-- ==== Sys2Proof/Machine/Fetch.lean ====
section
/-! DEFINITION. Where a step takes its operation from. GDD fetches no program (R24, R51): a step is given its inputs,
and the operation follows from them and CLR (R63). -/

namespace Sys2Proof.Machine

/-- What is presented in the coming step: the oldest input the environment has placed, else a free input word (R9,
log 3). -/
def State.presented (s : State) : Stimulus :=
  match s.stimulus with
  | [] => .clock (Config.freeInput s.cycle)
  | x :: _ => x

/-- The bytes of what is presented: for a clock step the control vector is `{rst, tick, CLR}`, two inputs and one
state bit (R63); for a function its operand word and its block (log 5). -/
def stimulusBytes (clr : Bool) : Stimulus → List Byte
  | .clock iw => [controlByte (inputRst iw) (inputTick iw) clr, nibbleByte (inputSample iw), 0#8]
  | .diff w => [w, 0#8, 1#8]
  | .compose w => [nibbleByte w, 0#8, 2#8]
  | .graylut w => [nibbleByte w, 0#8, 3#8]
  | .keysel w => [nibbleByte w, 0#8, 4#8]

/-- The bytes the decoder is given in the coming step. -/
def State.fetchBytes (s : State) : List Byte := stimulusBytes s.clr s.presented

/-- The input of this step is used up and the next step is a later one (R10, R48). -/
def State.advance (s : State) : State := { s with stimulus := s.stimulus.tail, cycle := s.cycle + 1 }

/-- The input word of a clock step (R61). -/
def inputWord (rst tick : Bool) (pins : Pins) : InputWord :=
  BitVec.ofBool rst ++ BitVec.ofBool tick ++ sampleOfPins pins

/-- What the environment presents to have an instruction run. -/
def stimulusOf : Instr → Stimulus
  | .init tick _ pins => .clock (inputWord true tick pins)
  | .hold _ pins => .clock (inputWord false false pins)
  | .clear pins => .clock (inputWord false true pins)
  | .decode pins => .clock (inputWord false true pins)
  | .diff prev curr => .diff (prev ++ curr)
  | .compose pins => .compose (sampleOfPins pins)
  | .graylut a => .graylut a
  | .keysel delta => .keysel delta

/-- The CLR under which an instruction is the one selected (R63): the `c` of its control vector; a function does not
depend on CLR. -/
def clrOf (s : State) : Instr → Bool
  | .init _ clr _ => clr
  | .hold clr _ => clr
  | .clear _ => true
  | .decode _ => false
  | .diff _ _ => s.clr
  | .compose _ => s.clr
  | .graylut _ => s.clr
  | .keysel _ => s.clr

/-- The state in which the very next step runs `i`: its inputs come first, and CLR, which is one of the three bits
that select the operation, is as `i`'s control vector has it. -/
def State.place (i : Instr) (s : State) : State :=
  { s with stimulus := stimulusOf i :: s.stimulus, clr := clrOf s i }

end Sys2Proof.Machine
end

