-- ==== Sys2Proof/Machine/Step.lean ====
section
/-! DEFINITION. One step: what is presented is decoded and run (R10, R63). -/

namespace Sys2Proof.Machine

/-- One step of the machine. -/
def step (s : State) : Host.Outcome State Fault Refusal :=
  match decode s.fetchBytes with
  | .ok i => exec i s.advance
  | .error reason => .refused (.rejected reason)

/-- `s` with the instruction of a table word placed where the next step takes its inputs from (log 3, log 5); unchanged
where the word is no instruction. -/
def State.withFetchWord (s : State) (nbits w : Nat) : State :=
  match decodeTableWord nbits w with
  | some i => s.place i
  | none => s

end Sys2Proof.Machine
end

