-- ==== Sys2Proof/Machine/Perform.lean ====
section
/-! DEFINITION. A step with both its results, next state and outputs (R10, R134). `exec` and `step` are its next-state
half: Laws/Step.lean proves it of both. -/

namespace Sys2Proof.Machine

/-- Next state and outputs of an instruction. -/
def perform (i : Instr) (s : State) : Host.Outcome Effect Fault Refusal :=
  match i with
  | .init _ _ pins => performInit pins s
  | .hold _ pins => performHold pins s
  | .clear pins => performClear pins s
  | .decode pins => performDecode pins s
  | .diff prev curr => performDiff prev curr s
  | .compose pins => performCompose pins s
  | .graylut a => performGraylut a s
  | .keysel delta => performKeysel delta s

/-- What the ports show while an instruction is run in a state. -/
def shownBy (i : Instr) (s : State) : Option Output := outputOf (perform i s)

/-- Next state and outputs of the coming step. -/
def State.performStep (s : State) : Host.Outcome Effect Fault Refusal :=
  match decode s.fetchBytes with
  | .ok i => perform i s.advance
  | .error reason => .refused (.rejected reason)

/-- What the ports show in the coming step: a function of the state before it, which holds what is presented (R22,
R68: valid in the same step as the inputs that cause it). -/
def State.shown (s : State) : Option Output := outputOf s.performStep

end Sys2Proof.Machine
end

