-- ==== Sys2Proof/Machine/Stimuli.lean ====
section
/-! DEFINITION. The stimulus notation of R72: the lines with which a sequence of input words is written. -/

namespace Sys2Proof.Machine

/-- `INIT s`: `{1, 0, s}`. -/
def lineInit (s : Sample) : InputWord := 0b10#2 ++ s

/-- `TICK s`: `{0, 1, s}`. -/
def lineTick (s : Sample) : InputWord := 0b01#2 ++ s

/-- `IDLE s`: `{0, 0, s}`. -/
def lineIdle (s : Sample) : InputWord := 0b00#2 ++ s

/-- `NOP`: `IDLE 0b0000`. -/
def lineNop : InputWord := lineIdle 0b0000#4

/-- `WAIT n`: n times `NOP`. -/
def lineWait (n : Nat) : List InputWord := List.replicate n lineNop

/-- `DETENT s`: `TICK s` and `TICK s`. -/
def lineDetent (s : Sample) : List InputWord := [lineTick s, lineTick s]

end Sys2Proof.Machine
end

