-- ==== Sys2Proof/Machine/TimeGate.lean ====
section
/-! DEFINITION. The environment's time gate, which drives `tick` (R170). It is no part of GDD (R28): no step reads it,
and `tick` is a free input of every step (D25, log 16). -/

namespace Sys2Proof.Machine

/-- What one pass of the main loop decides: the tick it presents and the deadline it leaves. -/
structure GatePass (w : Nat) where
  tick : Bool
  deadline : BitVec w
  deriving DecidableEq, Repr

/-- One pass at counter value `now` (R170, in the reading of C9 and D25): the subtraction is modulo 2^w, w being the
open parameter W_MS; at most one tick, and exactly one interval added. -/
def timeGate (cfg : Config) {w : Nat} (now deadline : BitVec w) : GatePass w :=
  if (now - deadline).toNat < cfg.tickMs then ⟨false, deadline⟩
  else ⟨true, deadline + BitVec.ofNat w cfg.tickMs⟩

end Sys2Proof.Machine
end

