-- ==== Sys2Proof/Safety.lean ====
section
/-! DEFINITION. What counts as a safe run, in the terms the statements use: the functions and the step of the spec
written a second time over plain integers, independently of the machine's bit vectors; the invariant; and runs on
input words chosen by the environment, with what they show. -/

namespace Sys2Proof.Machine

/-! ### The spec's functions over integers -/

/-- The table of R40, address 0 first. -/
def tableR40 : List Nat := [10, 11, 9, 8, 13, 12, 14, 15, 5, 4, 6, 7, 2, 3, 1, 0]

/-- The entry of the table at a sample (R111). -/
def codeR111 (s : Sample) : Nat := tableR40.getD s.toNat 0

/-- The inverse table of R114: the sample of each code. -/
def samplesR114 : List Sample := [15, 14, 12, 13, 9, 8, 10, 11, 3, 2, 0, 1, 5, 4, 6, 7]

/-- The sample of a code (R114). -/
def sampleOfCode (c : Code) : Sample := samplesR114.getD c.toNat 0

/-- DIFF as the five lines of R90 have it, over integers. -/
def diffR90 (prev curr : Int) : Int :=
  let raw := curr - prev
  if raw = 0 ∨ raw = 8 ∨ raw = -8 then 0
  else if raw > 8 then raw - 16
  else if raw < -8 then raw + 16
  else raw

/-- KEYSEL as R113 has it, over integers. -/
def keyselR113 (delta : Int) : Event :=
  if delta > 0 then .pressCw else if delta < 0 then .pressCcw else .none

/-- The number a boolean pin stands for (R110). -/
def pinNat (b : Bool) : Nat := if b then 1 else 0

/-- The code of four pin levels: the table's entry at `pin1 + 2·pin2 + 4·pin3 + 8·pin4` (R110, R111). -/
def codeOfPins (p : Pins) : Nat :=
  tableR40.getD (pinNat p.pin1 + 2 * pinNat p.pin2 + 4 * pinNat p.pin3 + 8 * pinNat p.pin4) 0

/-- The two registers of the spec (R20, R21). -/
structure Registers where
  prev : Nat
  clr : Bool
  deriving DecidableEq, Repr

/-- The three output ports of the spec (R60). -/
structure Ports where
  ev : Event
  code : Nat
  delta : Int
  deriving DecidableEq, Repr

/-- The whole of GDD as one function of the registers and the input word, line by line from R134. -/
def stepR134 (r : Registers) (rst tick : Bool) (s : Sample) : Registers × Ports :=
  let code := codeR111 s
  let delta := diffR90 r.prev code
  if rst then (⟨code, false⟩, ⟨.none, code, delta⟩)
  else if !tick then (⟨r.prev, r.clr⟩, ⟨.none, code, delta⟩)
  else if r.clr then (⟨r.prev, false⟩, ⟨.release, code, delta⟩)
  else (⟨code, decide (delta ≠ 0)⟩, ⟨keyselR113 delta, code, delta⟩)

/-- A run of that function on input words: the registers after it, and the ports of each step in turn (R134). -/
def runR134 : List InputWord → Registers → Registers × List Ports
  | [], r => (r, [])
  | iw :: rest, r =>
    let here := stepR134 r (inputRst iw) (inputTick iw) (inputSample iw)
    let after := runR134 rest here.1
    (after.1, here.2 :: after.2)

/-! ### How a state and an output show them -/

/-- The spec's registers in a state. -/
def State.registers (s : State) : Registers := ⟨s.prev.toNat, s.clr⟩

/-- The ports of GDD in an output, if it is one of a clock step. -/
def Output.ports : Output → Option Ports
  | .gdd ev d c => some ⟨ev, c.toNat, d.toInt⟩
  | .sample _ => Option.none
  | .code _ => Option.none
  | .delta _ => Option.none
  | .event _ => Option.none

/-- The event raised in a clock step; a function evaluation raises none. -/
def Output.raised : Output → Event
  | .gdd ev _ _ => ev
  | .sample _ => .none
  | .code _ => .none
  | .delta _ => .none
  | .event _ => .none

/-- The ports of GDD in the coming step, if it is a clock step that completes. -/
def State.ports (s : State) : Option Ports := s.shown.bind Output.ports

/-- The event raised in the coming step, if it completes. -/
def State.raised (s : State) : Option Event := s.shown.map Output.raised

/-- The mnemonic of spec/opcode_table.json of an instruction. -/
def mnemonicOf : Instr → String
  | .init _ _ _ => "INIT"
  | .hold _ _ => "HOLD"
  | .clear _ => "CLEAR"
  | .decode _ => "DECODE"
  | .diff _ _ => "DIFF"
  | .compose _ => "COMPOSE"
  | .graylut _ => "GRAYLUT"
  | .keysel _ => "KEYSEL"

/-- The four functions of R71, which are no operation of a clock step. -/
def isFunction : Instr → Bool
  | .init _ _ _ => false
  | .hold _ _ => false
  | .clear _ => false
  | .decode _ => false
  | .diff _ _ => true
  | .compose _ => true
  | .graylut _ => true
  | .keysel _ => true

/-! ### The invariant -/

/-- A safe state: an INIT has been taken (R192). Every value of PREV and CLR is then legal (R30). -/
def State.Inv (s : State) : Prop := s.initialised = true

/-- What the output of a step says of the state it leads to: no delta is 0b1000 (R67); a press goes with the sign of
its delta (R113) and leaves CLR set and PREV at the code shown (R133); a release leaves CLR clear (R132); KEYSEL never
gives RELEASE (R113). -/
def Output.consistent (after : State) : Output → Prop
  | .gdd ev d c =>
      d ≠ deltaNeverProduced
      ∧ (ev.isPress = true → after.clr = true ∧ after.prev = c)
      ∧ (ev = .pressCw → 0 < d.toInt)
      ∧ (ev = .pressCcw → d.toInt < 0)
      ∧ (ev = .release → after.clr = false)
  | .sample _ => True
  | .code _ => True
  | .delta d => d ≠ deltaNeverProduced
  | .event ev => ev ≠ .release

/-- Whether the environment is left with a key held down, after the report that an event asks for: a press sends a key,
RELEASE sends none, NONE sends nothing (R69). -/
def heldAfter (held : Bool) : Event → Bool
  | .none => held
  | .pressCw => true
  | .pressCcw => true
  | .release => false

/-! ### Runs on input words of the environment -/

/-- The environment presents one input word in the coming step. -/
def State.feed (iw : InputWord) (s : State) : State := { s with stimulus := [.clock iw] }

/-- The state after a sequence of input words, if no step stops. -/
def runWords : List InputWord → State → Option State
  | [], s => some s
  | iw :: rest, s =>
    match step (s.feed iw) with
    | .next t => runWords rest t
    | .fault _ => Option.none
    | .refused _ => Option.none

/-- The events of the steps with tick = 1 in a run on input words, up to the first stop (R136). -/
def tickEvents : List InputWord → State → List Event
  | [], _ => []
  | iw :: rest, s =>
    match step (s.feed iw) with
    | .next t => (if inputTick iw then (s.feed iw).raised.toList else []) ++ tickEvents rest t
    | .fault _ => []
    | .refused _ => []

/-- The ports of each step of a run on input words, up to the first stop. -/
def portsOfRun : List InputWord → State → List Ports
  | [], _ => []
  | iw :: rest, s =>
    match step (s.feed iw) with
    | .next t => (s.feed iw).ports.toList ++ portsOfRun rest t
    | .fault _ => []
    | .refused _ => []

/-- Two neighbours in the sequence of tick events: the second is RELEASE exactly when the first is a press (R136). -/
def releaseFollowsPress (a b : Event) : Prop := b = .release ↔ a.isPress = true

/-- The other key: the press of the opposite direction (R194). -/
def oppositePress : Event → Event
  | .none => .none
  | .pressCw => .pressCcw
  | .pressCcw => .pressCw
  | .release => .release

/-- How many presses a sequence of events holds. -/
def pressCount (events : List Event) : Nat := (events.filter Event.isPress).length

end Sys2Proof.Machine
end

