-- ==== Sys2Proof/Certificates/Slice0/Obligations.lean ====
section
/-! DEFINITION. The statements for the provers. Results are said over plain integers with the second writing of the
spec's functions in Safety.lean, not with the machine's own functions. -/

open Sys2Proof Sys2Proof.Machine

/-! ### Words and decoding -/

/-- Every well-formed instruction survives encoding and decoding, every operand at every value (R61, R63, R71 in the
carrier of log 5). -/
def Obligations.DecodeOfEncode : Prop :=
  ∀ i : Instr, i.wellFormed = true → decode (encode i) = .ok i

/-- Whatever the decoder accepts is well formed and has that one writing (carrier of log 5). -/
def Obligations.EncodeOfDecode : Prop :=
  ∀ (bytes : List Byte) (i : Instr), decode bytes = .ok i → encode i = bytes ∧ i.wellFormed = true

/-- Words written out in the model's own three-byte carrier (log 5: byte 1 the sample, byte 2 the block), byte 0 being
the table's word as R63 and R71 have it: `INIT 0b0111` with tick 0 and CLR 1, `IDLE 0b0010` under CLR
1, `TICK 0b1000` under CLR 1 and under CLR 0, DIFF(14, 1), COMPOSE of pin1 low, GRAYLUT(9), KEYSEL(−1). -/
def Obligations.WrittenWordsDecode : Prop :=
  decode [0b00000101#8, 0b0111#8, 0#8] = .ok (.init false true ⟨true, true, true, false⟩)
  ∧ decode [0b00000001#8, 0b0010#8, 0#8] = .ok (.hold true ⟨false, true, false, false⟩)
  ∧ decode [0b00000011#8, 0b1000#8, 0#8] = .ok (.clear ⟨false, false, false, true⟩)
  ∧ decode [0b00000010#8, 0b1000#8, 0#8] = .ok (.decode ⟨false, false, false, true⟩)
  ∧ decode [0b11100001#8, 0#8, 1#8] = .ok (.diff 14#4 1#4)
  ∧ decode [0b00001110#8, 0#8, 2#8] = .ok (.compose ⟨false, true, true, true⟩)
  ∧ decode [0b00001001#8, 0#8, 3#8] = .ok (.graylut 9#4)
  ∧ decode [0b00001111#8, 0#8, 4#8] = .ok (.keysel 15#4)

/-- R63: each of the eight control vectors falls under exactly one row of the map, the row of the operation the
decoder selects; and the step on an input word runs that operation: rst wins over tick, and on a tick CLR wins over
decoding. -/
def Obligations.ControlVectorSelectsOneOperation : Prop :=
  (∀ (cv : ControlVector) (pins : Pins),
    (controlRows.filter (controlRowMatches cv)).map ControlRow.mnemonic = [mnemonicOf (decodeControl cv pins)])
  ∧ ∀ (s : State) (iw : InputWord), s.presented = .clock iw →
    step s = exec
      (if inputRst iw = true then .init (inputTick iw) s.clr (pinsOfSample (inputSample iw))
        else if inputTick iw = false then .hold s.clr (pinsOfSample (inputSample iw))
        else if s.clr = true then .clear (pinsOfSample (inputSample iw))
        else .decode (pinsOfSample (inputSample iw))) s.advance

/-- A step runs the decoded instruction: exec of it on the state whose oldest placed input is used up and whose step
count has gone up by one, nothing else changed; with no input placed, a free input word is presented (log 3). -/
def Obligations.StepRunsDecodedInstruction : Prop :=
  (∀ (s : State) (i : Instr), decode s.fetchBytes = .ok i →
    step s = exec i { s with stimulus := s.stimulus.tail, cycle := s.cycle + 1 })
  ∧ ∀ s : State, s.stimulus = [] → s.fetchBytes = stimulusBytes s.clr (.clock (Config.freeInput s.cycle))

/-- R64: nothing presented in a clock step, and no operand word of a function but KEYSEL's 0b1000, is rejected: it
decodes to a well-formed instruction; and a step at which KEYSEL's 0b1000 is presented is refused by that name (log 7). -/
def Obligations.PresentedWordsDecode : Prop :=
  (∀ s : State, s.presented ≠ .keysel 0b1000#4 → ∃ i, decode s.fetchBytes = .ok i ∧ i.wellFormed = true)
  ∧ ∀ s : State, s.presented = .keysel 0b1000#4 → step s = .refused (.rejected .keyselMinusEight)

/-- An instruction of a table word, placed with withFetchWord, is what the very next step runs (log 3, log 5). -/
def Obligations.PlacedWordRunsNext : Prop :=
  ∀ (s : State) (nbits w : Nat) (i : Instr), decodeTableWord nbits w = some i →
    step (s.withFetchWord nbits w) = exec i { s with clr := clrOf s i, cycle := s.cycle + 1 }

/-! ### The four functions -/

/-- R40: the sixteen entries of the table ROM, and that GRAYLUT reads them (R111). -/
def Obligations.GraylutReadsTheTable : Prop :=
  ∀ s : Sample, memRead s = graylut s ∧ (graylut s).toNat
    = [10, 11, 9, 8, 13, 12, 14, 15, 5, 4, 6, 7, 2, 3, 1, 0].getD s.toNat 0

/-- R110: u(S) = pin1 + 2·pin2 + 4·pin3 + 8·pin4. -/
def Obligations.ComposeFollowsFormula : Prop :=
  ∀ p : Pins, (compose p).toNat = pinNat p.pin1 + 2 * pinNat p.pin2 + 4 * pinNat p.pin3 + 8 * pinNat p.pin4

/-- R90: the signed result of DIFF is that of the five lines over integers, curr − prev (R91). -/
def Obligations.DiffFollowsFiveLines : Prop :=
  ∀ prev curr : Code, (diff prev curr).toInt = diffR90 prev.toNat curr.toNat

/-- The equivalent hardware form: a 4-bit subtractor whose one pattern 0b1000 is masked to 0 (40_graydiff.md, the
spec's own inference). -/
def Obligations.DiffHardwareFormAgrees : Prop :=
  ∀ prev curr : Code, diff prev curr = diffHardware prev curr

/-- DIFF gives every value of [−7, 7] and no other, 0 for 32 of the 256 pairs and every other value for 16 (the spec's
own count). -/
def Obligations.DiffRangeAndCounts : Prop :=
  (∀ prev curr : Code, -7 ≤ (diff prev curr).toInt ∧ (diff prev curr).toInt ≤ 7)
  ∧ ∀ d : Fin 15, ((List.range 256).filter fun n =>
      (diff (BitVec.ofNat 4 (n / 16)) (BitVec.ofNat 4 n)).toInt = (d.val : Int) - 7).length
        = if d.val = 7 then 32 else 16

/-- R95: DIFF(prev, curr) = −DIFF(curr, prev) for all pairs, the boundary pairs included. -/
def Obligations.DiffAntisymmetric : Prop :=
  ∀ prev curr : Code, (diff prev curr).toInt = -(diff curr prev).toInt

/-- DIFF is 0 exactly when (curr − prev) mod 16 is 0 or 8; in particular on equal operands (the converse is the spec's
own inference). -/
def Obligations.DiffZeroExactly : Prop :=
  (∀ x : Code, diff x x = 0#4)
  ∧ ∀ prev curr : Code, diff prev curr = 0#4
    ↔ ((curr.toNat : Int) - prev.toNat) % 16 = 0 ∨ ((curr.toNat : Int) - prev.toNat) % 16 = 8

/-- R97: two codes 8 apart give 0 in both directions, for each of the 16 ordered pairs; a DECODE that sees such a
movement raises no event, leaves CLR 0 and yet moves PREV to the new code. -/
def Obligations.BoundaryMovementIsLost : Prop :=
  (∀ p : Code, diff p (p + 8#4) = 0#4 ∧ diff (p + 8#4) p = 0#4)
  ∧ ∀ (s : State) (pins : Pins), s.initialised = true → codeOfPins pins = (s.prev.toNat + 8) % 16 →
    ∃ t, exec (.decode pins) s = .next t ∧ t.registers = ⟨codeOfPins pins, false⟩
      ∧ (shownBy (.decode pins) s).map Output.raised = some .none

/-- DIFF depends only on the residue of the difference, by the table of sixteen entries, and is invariant under
rotation of the code space (the spec's own inference). -/
def Obligations.DiffResidueTable : Prop :=
  (∀ prev curr : Code, (diff prev curr).toInt
    = [0, 1, 2, 3, 4, 5, 6, 7, 0, -7, -6, -5, -4, -3, -2, -1].getD (((curr.toNat : Int) - prev.toNat) % 16).toNat 0)
  ∧ ∀ prev curr n : Code, diff (prev + n) (curr + n) = diff prev curr

/-- Unit steps, the wrap included, give +1 and −1; stepping through the table in table order does not (the spec's own
inference; spec/90_conflicts.md C2). -/
def Obligations.UnitStepsAndTableOrder : Prop :=
  (∀ c : Code, (diff c (c + 1#4)).toInt = 1 ∧ (diff c (c - 1#4)).toInt = -1)
  ∧ (List.range 16).map (fun i => (diff (graylut (BitVec.ofNat 4 i)) (graylut (BitVec.ofNat 4 (i + 1)))).toInt)
    = [1, -2, -1, 5, -1, 2, 1, 6, -1, 2, 1, -5, 1, -2, -1, -6]

/-- A movement of n positions, n any integer, reads as n where |n| ≤ 7, and otherwise as the value of its residue:
right, nothing at 8, the wrong sign above (the spec's own inference). -/
def Obligations.MultiStepMovementAliases : Prop :=
  ∀ (c : Code) (n : Int),
    (-7 ≤ n ∧ n ≤ 7 → (diff c (c + BitVec.ofInt 4 n)).toInt = n)
    ∧ (diff c (c + BitVec.ofInt 4 n)).toInt
      = if n % 16 ≤ 7 then n % 16 else if n % 16 = 8 then 0 else n % 16 - 16

/-- R66: in 5 bits two's complement the difference is exact, lies in [−15, 15], and −16 never occurs. -/
def Obligations.RawDifferenceExact : Prop :=
  ∀ prev curr : Code, (rawBits prev curr).toInt = (curr.toNat : Int) - prev.toNat
    ∧ -15 ≤ (rawBits prev curr).toInt ∧ (rawBits prev curr).toInt ≤ 15

/-- The table is a permutation, with the inverse table of samples (the spec's own inference). -/
def Obligations.TableIsPermutation : Prop :=
  (∀ c : Code, graylut (sampleOfCode c) = c) ∧ ∀ s : Sample, sampleOfCode (graylut s) = s

/-- The closed form of the table: the Gray-to-binary conversion of the complemented sample (the spec's own
inference). -/
def Obligations.TableClosedForm : Prop :=
  ∀ s : Sample, graylut s
    = (~~~s) ^^^ ((~~~s) >>> 1) ^^^ ((~~~s) >>> 2) ^^^ ((~~~s) >>> 3)

/-- Going through the codes in order, the samples change in exactly one bit at every step, the wrap included; and a
read of the pins one after another during such a step sees the old or the new sample (the spec's own inferences). -/
def Obligations.SingleBitCycle : Prop :=
  (∀ c : Code, ∃ b : Fin 4, sampleOfCode c ^^^ sampleOfCode (c + 1#4) = 1#4 <<< b.val)
  ∧ ∀ c mixed : BitVec 4,
    let old := sampleOfCode c
    let new := sampleOfCode (c + 1#4)
    (old &&& mixed) ||| (new &&& ~~~mixed) = old ∨ (old &&& mixed) ||| (new &&& ~~~mixed) = new

/-- The deltas of a flip of pin1, pin2, pin3 or pin4 at each of the sixteen samples; none is 0 (the spec's own
inference). -/
def Obligations.SinglePinFlipDeltas : Prop :=
  (List.range 16).map (fun n => (List.range 4).map fun b =>
      (diff (graylut (BitVec.ofNat 4 n)) (graylut (BitVec.ofNat 4 n ^^^ (1#4 <<< b)))).toInt)
    = [[1, -1, 3, -5], [-1, -3, 1, -7], [-1, 1, 5, -3], [1, 3, 7, -1],
       [-1, 1, -3, 5], [1, 3, -1, 7], [1, -1, -5, 3], [-1, -3, -7, 1],
       [-1, 1, -3, 5], [1, 3, -1, 7], [1, -1, -5, 3], [-1, -3, -7, 1],
       [1, -1, 3, -5], [-1, -3, 1, -7], [-1, 1, 5, -3], [1, 3, 7, -1]]

/-- R113: only the sign of the delta matters, for every delta DIFF can give; KEYSEL never returns RELEASE, and no
operation but CLEAR raises it. -/
def Obligations.KeyselFollowsSign : Prop :=
  (∀ d : Delta, d ≠ 0b1000#4 → keysel d = keyselR113 d.toInt ∧ keysel d ≠ .release)
  ∧ ∀ (i : Instr) (s : State), (shownBy i s).map Output.raised = some .release → ∃ pins, i = .clear pins

/-- R67: DIFF never produces 0b1000, and the wire tests for positive and negative are those of the signed value. -/
def Obligations.DeltaWireEncoding : Prop :=
  ∀ prev curr : Code, diff prev curr ≠ 0b1000#4
    ∧ diff prev curr = BitVec.ofInt 4 (diffR90 prev.toNat curr.toNat)
    ∧ deltaPositive (diff prev curr) = decide (diffR90 prev.toNat curr.toNat > 0)
    ∧ deltaNegative (diff prev curr) = decide (diffR90 prev.toNat curr.toNat < 0)

/-- R68: the two bits of each event, and that every clock step that completes raises one event on the ports. -/
def Obligations.EventWireEncoding : Prop :=
  (Event.none.bits = 0b00#2 ∧ Event.pressCw.bits = 0b01#2 ∧ Event.pressCcw.bits = 0b10#2
    ∧ Event.release.bits = 0b11#2)
  ∧ ∀ (s t : State) (iw : InputWord), s.presented = .clock iw → step s = .next t →
    ∃ ev delta code, s.shown = some (.gdd ev delta code)

/-- R69: the report each event asks for, whatever the two key codes are: none for NONE, all zero for RELEASE, the one
keycode in slot 0 for a press. -/
def Obligations.EventReports : Prop :=
  ∀ cfg : Config, Event.none.report cfg = none
    ∧ Event.release.report cfg = some ⟨0#8, #v[0#8, 0#8, 0#8, 0#8, 0#8, 0#8]⟩
    ∧ Event.pressCw.report cfg = some ⟨0#8, #v[cfg.keyCwCode, 0#8, 0#8, 0#8, 0#8, 0#8]⟩
    ∧ Event.pressCcw.report cfg = some ⟨0#8, #v[cfg.keyCcwCode, 0#8, 0#8, 0#8, 0#8, 0#8]⟩

/-- R72: the input words of the lines INIT s, TICK s, IDLE s, and the expansions of NOP, WAIT n and DETENT s. -/
def Obligations.StimulusLines : Prop :=
  (∀ s : Sample,
    (inputRst (lineInit s) = true ∧ inputTick (lineInit s) = false ∧ inputSample (lineInit s) = s)
    ∧ (inputRst (lineTick s) = false ∧ inputTick (lineTick s) = true ∧ inputSample (lineTick s) = s)
    ∧ (inputRst (lineIdle s) = false ∧ inputTick (lineIdle s) = false ∧ inputSample (lineIdle s) = s)
    ∧ lineDetent s = [lineTick s, lineTick s])
  ∧ lineNop = lineIdle 0b0000#4
  ∧ ∀ n : Nat, lineWait n = List.replicate n lineNop

/-! ### The operations: result, completion, and what stays -/

/-- R130: INIT, selected by rst = 1, completes in every state, before the first INIT too: PREV is the code of the pins,
CLR is 0, no event; the pending inputs and the step count are as they were. -/
def Obligations.InitLoadsPrevAndClearsClr : Prop :=
  (∀ (tick clr : Bool) (pins : Pins) (s : State), ∃ t, exec (.init tick clr pins) s = .next t
    ∧ t.registers = ⟨codeOfPins pins, false⟩
    ∧ (shownBy (.init tick clr pins) s).bind Output.ports
      = some ⟨.none, codeOfPins pins, diffR90 s.prev.toNat (codeOfPins pins)⟩
    ∧ t.initialised = true ∧ t.stimulus = s.stimulus ∧ t.cycle = s.cycle)
  ∧ ∀ (s : State) (iw : InputWord), s.presented = .clock iw → inputRst iw = true →
    step s = exec (.init (inputTick iw) s.clr (pinsOfSample (inputSample iw))) s.advance

/-- R131: HOLD, selected by rst = 0 and tick = 0, completes in every initialised state and changes nothing: PREV and
CLR stay, no event. -/
def Obligations.HoldKeepsRegisters : Prop :=
  (∀ (clr : Bool) (pins : Pins) (s : State), s.initialised = true → ∃ t, exec (.hold clr pins) s = .next t
    ∧ t.registers = s.registers
    ∧ (shownBy (.hold clr pins) s).bind Output.ports
      = some ⟨.none, codeOfPins pins, diffR90 s.prev.toNat (codeOfPins pins)⟩
    ∧ t.initialised = true ∧ t.stimulus = s.stimulus ∧ t.cycle = s.cycle)
  ∧ ∀ (s : State) (iw : InputWord), s.presented = .clock iw → inputRst iw = false → inputTick iw = false →
    step s = exec (.hold s.clr (pinsOfSample (inputSample iw))) s.advance

/-- R132: CLEAR, selected by rst = 0, tick = 1 and CLR = 1, completes in every initialised state: CLR is 0, PREV stays
whatever the pins show, RELEASE is raised. -/
def Obligations.ClearRaisesRelease : Prop :=
  (∀ (pins : Pins) (s : State), s.initialised = true → ∃ t, exec (.clear pins) s = .next t
    ∧ t.registers = ⟨s.prev.toNat, false⟩
    ∧ (shownBy (.clear pins) s).bind Output.ports
      = some ⟨.release, codeOfPins pins, diffR90 s.prev.toNat (codeOfPins pins)⟩
    ∧ t.initialised = true ∧ t.stimulus = s.stimulus ∧ t.cycle = s.cycle)
  ∧ ∀ (s : State) (iw : InputWord), s.presented = .clock iw → inputRst iw = false → inputTick iw = true →
    s.clr = true → step s = exec (.clear (pinsOfSample (inputSample iw))) s.advance

/-- R133: DECODE, selected by rst = 0, tick = 1 and CLR = 0, completes in every initialised state: the event is that of
the sign of DIFF(PREV, code of the pins), CLR is whether that delta is not 0, PREV is always the new code. -/
def Obligations.DecodeComparesAndUpdates : Prop :=
  (∀ (pins : Pins) (s : State), s.initialised = true → ∃ t, exec (.decode pins) s = .next t
    ∧ t.registers = ⟨codeOfPins pins, decide (diffR90 s.prev.toNat (codeOfPins pins) ≠ 0)⟩
    ∧ (shownBy (.decode pins) s).bind Output.ports
      = some ⟨keyselR113 (diffR90 s.prev.toNat (codeOfPins pins)), codeOfPins pins,
        diffR90 s.prev.toNat (codeOfPins pins)⟩
    ∧ t.initialised = true ∧ t.stimulus = s.stimulus ∧ t.cycle = s.cycle)
  ∧ ∀ (s : State) (iw : InputWord), s.presented = .clock iw → inputRst iw = false → inputTick iw = true →
    s.clr = false → step s = exec (.decode (pinsOfSample (inputSample iw))) s.advance

/-- R192: before the first INIT, HOLD, CLEAR and DECODE have no meaning (refused), and INIT completes with event NONE
and the code of the pins. -/
def Obligations.RefusedBeforeFirstInit : Prop :=
  ∀ (s : State) (clr : Bool) (pins : Pins), s.initialised = false →
    exec (.hold clr pins) s = .refused .beforeFirstInit
    ∧ exec (.clear pins) s = .refused .beforeFirstInit
    ∧ exec (.decode pins) s = .refused .beforeFirstInit
    ∧ ∃ delta code t, exec (.init clr clr pins) s = .next t ∧ t.initialised = true
      ∧ shownBy (.init clr clr pins) s = some (.gdd .none delta code) ∧ code.toNat = codeOfPins pins

/-- The functions DIFF, COMPOSE and GRAYLUT complete in every state, before the first INIT too, show the result of
their operand word and leave the whole state as it was (R71, as steps of the model: log 6). -/
def Obligations.FunctionsShowTheirResult : Prop :=
  (∀ (prev curr : Code) (s : State), ∃ d, exec (.diff prev curr) s = .next s
    ∧ shownBy (.diff prev curr) s = some (.delta d) ∧ d.toInt = diffR90 prev.toNat curr.toNat)
  ∧ (∀ (pins : Pins) (s : State), ∃ a, exec (.compose pins) s = .next s ∧ shownBy (.compose pins) s = some (.sample a)
    ∧ a.toNat = pinNat pins.pin1 + 2 * pinNat pins.pin2 + 4 * pinNat pins.pin3 + 8 * pinNat pins.pin4)
  ∧ ∀ (a : Sample) (s : State), ∃ c, exec (.graylut a) s = .next s ∧ shownBy (.graylut a) s = some (.code c)
    ∧ c.toNat = codeR111 a

/-- KEYSEL completes for every delta that DIFF can give, shows the event of its sign and leaves the whole state as it
was; the pattern 0b1000 is refused and shows nothing (spec/93_implementation_defined.md U3; as a step of the model:
log 6, log 7). -/
def Obligations.KeyselShowsEventOrRefuses : Prop :=
  (∀ (d : Delta) (s : State), d ≠ 0b1000#4 →
    exec (.keysel d) s = .next s ∧ shownBy (.keysel d) s = some (.event (keyselR113 d.toInt)))
  ∧ ∀ s : State, exec (.keysel 0b1000#4) s = .refused .keyselMinusEight ∧ shownBy (.keysel 0b1000#4) s = none

/-- The result of a function depends on its operands and on nothing else, and calling it or not changes nothing: the
state after it is the state before, and a step at which one is presented only uses its input up, so that every register
is for the next step as it was (as steps of the model: log 6). -/
def Obligations.FunctionCallsChangeNothing : Prop :=
  (∀ (i : Instr) (s t : State), isFunction i = true → exec i s = .next t → t = s)
  ∧ (∀ (i : Instr) (s u : State), isFunction i = true → shownBy i s = shownBy i u)
  ∧ ∀ (s t : State) (x : Stimulus) (rest : List Stimulus), (∀ iw, x ≠ .clock iw) → s.stimulus = x :: rest →
    step s = .next t → t.registers = s.registers ∧ t.initialised = s.initialised ∧ t.stimulus = rest

/-- R70: in every clock step that completes, whatever the operation, code is GRAYLUT(S) and delta is DIFF(PREV,
GRAYLUT(S)) with PREV as it was before the step. -/
def Obligations.CodeAndDeltaInEveryStep : Prop :=
  ∀ (s t : State) (iw : InputWord), s.presented = .clock iw → step s = .next t →
    ∃ ev, s.ports = some ⟨ev, codeR111 (inputSample iw), diffR90 s.prev.toNat (codeR111 (inputSample iw))⟩

/-- HOLD and CLEAR do not sample: two runs that differ only in the pins end in the same registers and raise the same
event. -/
def Obligations.HoldAndClearIgnorePins : Prop :=
  ∀ (i j : Instr) (clr : Bool) (p q : Pins) (s t u : State),
    (i = .hold clr p ∧ j = .hold clr q) ∨ (i = .clear p ∧ j = .clear q) →
    exec i s = .next t → exec j s = .next u → t.registers = u.registers
      ∧ (shownBy i s).map Output.raised = (shownBy j s).map Output.raised

/-- Who writes CLR and what (INIT 0, HOLD unchanged, CLEAR 0, DECODE delta ≠ 0), and that PREV is written by INIT and
DECODE only, each with the code of its sample; the evaluation of a function, a step of the model's own (log 6), writes
neither. -/
def Obligations.RegisterWriters : Prop :=
  ∀ (i : Instr) (s t : State), exec i s = .next t →
    match i with
    | .init _ _ pins => t.registers = ⟨codeOfPins pins, false⟩
    | .hold _ _ => t.registers = s.registers
    | .clear _ => t.registers = ⟨s.prev.toNat, false⟩
    | .decode pins => t.registers = ⟨codeOfPins pins, decide (diffR90 s.prev.toNat (codeOfPins pins) ≠ 0)⟩
    | .diff _ _ => t.registers = s.registers
    | .compose _ => t.registers = s.registers
    | .graylut _ => t.registers = s.registers
    | .keysel _ => t.registers = s.registers

/-! ### Reset -/

/-- Reset is the INIT operation on the sample at boot, a free value (log 1): it takes the power-on state, in which no
INIT has been taken (log 2), to State.reset, where PREV is the code of that sample and CLR is 0. -/
def Obligations.ResetIsTheInitOperation : Prop :=
  State.powerOn.initialised = false
  ∧ step (State.powerOn.feed (lineInit Config.bootSample)) = .next State.reset
  ∧ State.reset.registers = ⟨codeR111 Config.bootSample, false⟩

/-- R190: holding rst = 1 for several steps repeats INIT each step, and the last one counts: from any state,
initialised or not, PREV is then the code of the last sample and CLR is 0. -/
def Obligations.LastInitCounts : Prop :=
  ∀ (words : List InputWord) (last : InputWord) (s : State),
    (∀ iw ∈ words, inputRst iw = true) → inputRst last = true →
    ∃ t, runWords (words ++ [last]) s = some t ∧ t.initialised = true
      ∧ t.registers = ⟨codeR111 (inputSample last), false⟩

/-- R191: INIT in state KeyDown makes CLR 0 and the release that was owed is never raised: the step raises NONE, and in
any run after it without a further INIT the first tick event is not RELEASE. -/
def Obligations.InitDropsOwedRelease : Prop :=
  ∀ (s : State) (iw : InputWord), s.clr = true → s.presented = .clock iw → inputRst iw = true →
    ∃ t, step s = .next t ∧ t.clr = false ∧ s.raised = some .none
      ∧ ∀ words : List InputWord, (∀ w ∈ words, inputRst w = false) →
        (tickEvents words t).head? ≠ some .release

/-! ### The whole machine -/

/-- The invariant holds at reset, and what the INIT step that leads to State.reset shows agrees with it (log 1). -/
def Obligations.InvariantAtReset : Prop :=
  State.reset.Inv
  ∧ ∃ o, (State.powerOn.feed (lineInit Config.bootSample)).shown = some o ∧ o.consistent State.reset

/-- Every step keeps the invariant, whatever is presented: after an INIT the machine stays initialised, and what every
step shows agrees with the registers it leads to. -/
def Obligations.StepKeepsInvariant : Prop :=
  ∀ s t : State, s.Inv → step s = .next t → t.Inv ∧ ∃ o, s.shown = some o ∧ o.consistent t

/-- An environment that sends every report is left with a key held down exactly when CLR is 1: every step but an INIT
keeps that, whatever is presented (42_poller.md section 3, 70_reset_and_hazards.md section 3). -/
def Obligations.StepKeepsHeldKeyIsClr : Prop :=
  ∀ (s t : State) (held : Bool), s.Inv → held = s.clr →
    (∀ iw, s.presented = .clock iw → inputRst iw = false) → step s = .next t →
    ∃ ev, s.raised = some ev ∧ heldAfter held ev = t.clr

/-- R11: after the first INIT a step answers a next state for every input and every state; only KEYSEL of 0b1000,
which is never produced, is left out (log 7). -/
def Obligations.StepIsTotalAfterInit : Prop :=
  ∀ s : State, s.initialised = true → s.presented ≠ .keysel 0b1000#4 →
    ∃ t, step s = .next t ∧ t.initialised = true ∧ t.stimulus = s.stimulus.tail ∧ t.cycle = s.cycle + 1

/-- A clock step is the one function of registers and input word that 42_poller.md section 2 writes (the spec's own
restatement). -/
def Obligations.ClockStepIsTheStepFunction : Prop :=
  ∀ (s : State) (iw : InputWord), s.initialised = true → s.presented = .clock iw →
    ∃ t, step s = .next t
      ∧ t.registers = (stepR134 s.registers (inputRst iw) (inputTick iw) (inputSample iw)).1
      ∧ s.ports = some (stepR134 s.registers (inputRst iw) (inputTick iw) (inputSample iw)).2

/-- A run of any length on any input words refines the run of that function: the two registers after it, and the ports
(ev, code and delta) of every step in turn. -/
def Obligations.RunsRefineTheStepFunction : Prop :=
  ∀ (words : List InputWord) (s : State), s.initialised = true →
    ∃ t, runWords words s = some t ∧ t.initialised = true
      ∧ t.registers = (runR134 words s.registers).1
      ∧ portsOfRun words s = (runR134 words s.registers).2

/-- R135: the state graph, every transition with its event and no other: INIT from any state, the other operations
from Idle and KeyDown. -/
def Obligations.TransitionGraph : Prop :=
  ∀ (s : State) (iw : InputWord), s.presented = .clock iw →
    (inputRst iw = true → ∃ t, step s = .next t ∧ t.clr = false ∧ s.raised = some .none)
    ∧ (inputRst iw = false → s.initialised = true → ∃ t, step s = .next t ∧
      (t.clr, s.raised) =
        if inputTick iw = false then (s.clr, some .none)
        else if s.clr = true then (false, some .release)
        else if diffR90 s.prev.toNat (codeR111 (inputSample iw)) = 0 then (false, some .none)
        else if diffR90 s.prev.toNat (codeR111 (inputSample iw)) > 0 then (true, some .pressCw)
        else (true, some .pressCcw))

/-- In the events of the ticks of any run without a further INIT, every press is immediately followed by RELEASE,
every RELEASE is immediately preceded by a press, so no two presses are neighbours; the first event is RELEASE exactly
when one was owed; and there is one event per tick (42_poller.md section 4, in the spec's own event-sequence form). -/
def Obligations.PressThenRelease : Prop :=
  ∀ (words : List InputWord) (s : State), s.initialised = true → (∀ iw ∈ words, inputRst iw = false) →
    (tickEvents words s).IsChain releaseFollowsPress
    ∧ (∀ e, (tickEvents words s).head? = some e → (e = .release ↔ s.clr = true))
    ∧ (tickEvents words s).length = (words.filter inputTick).length

/-- At most one press per two ticks, in any run without a further INIT (the spec's own inference, 70_reset_and_hazards.md
section 3). -/
def Obligations.PressRate : Prop :=
  ∀ (words : List InputWord) (s : State), s.initialised = true → (∀ iw ∈ words, inputRst iw = false) →
    2 * pressCount (tickEvents words s) ≤ (words.filter inputTick).length + 1

/-- R137: after an INIT with a sample, or a DECODE with it that left CLR 0, a tick with the same sample raises NONE and
leaves the registers; after a DECODE that pressed a key, the second tick raises RELEASE and the third NONE. -/
def Obligations.SecondTickIsIdempotent : Prop :=
  ∀ (s t : State) (smp : Sample),
    (step (s.feed (lineInit smp)) = .next t ∨ (s.clr = false ∧ step (s.feed (lineTick smp)) = .next t)) →
    (t.clr = false → ∃ u, step (t.feed (lineTick smp)) = .next u ∧ u.registers = t.registers
      ∧ (t.feed (lineTick smp)).raised = some .none)
    ∧ (t.clr = true → ∃ u v, step (t.feed (lineTick smp)) = .next u ∧ (t.feed (lineTick smp)).raised = some .release
      ∧ step (u.feed (lineTick smp)) = .next v ∧ v.registers = u.registers
      ∧ (u.feed (lineTick smp)).raised = some .none)

/-- R138: from (PREV = p, CLR = 0), a tick at the code p + 1 presses the CW key, the next tick releases it whatever the
pins show, and the third, at the same sample as the first, raises nothing; the same with the CCW key at p − 1. -/
def Obligations.OneDetentOneStroke : Prop :=
  ∀ (s : State) (smp during : Sample) (up : Bool), s.initialised = true → s.clr = false →
    codeR111 smp = (s.prev.toNat + if up then 1 else 15) % 16 →
    ∃ a b c, step (s.feed (lineTick smp)) = .next a ∧ step (a.feed (lineTick during)) = .next b
      ∧ step (b.feed (lineTick smp)) = .next c
      ∧ (s.feed (lineTick smp)).raised = some (if up then .pressCw else .pressCcw)
      ∧ (a.feed (lineTick during)).raised = some .release ∧ (b.feed (lineTick smp)).raised = some .none
      ∧ a.registers = ⟨codeR111 smp, true⟩ ∧ b.registers = ⟨codeR111 smp, false⟩
      ∧ c.registers = ⟨codeR111 smp, false⟩

/-- Any number of HOLD steps, with any pin activity, leaves the registers as they were, and every one raises NONE. -/
def Obligations.HoldStepsChangeNothing : Prop :=
  ∀ (words : List InputWord) (s : State), s.initialised = true →
    (∀ iw ∈ words, inputRst iw = false ∧ inputTick iw = false) →
    ∃ t, runWords words s = some t ∧ t.registers = s.registers ∧ t.initialised = true
      ∧ (portsOfRun words s).map Ports.ev = List.replicate words.length .none

/-- Pin activity between two decoded samples leaves no trace: whatever HOLD steps come before it, and however many, an
input word ends in the same registers and its step shows the same ports. -/
def Obligations.PinsBetweenSamplesLeaveNoTrace : Prop :=
  ∀ (idle idle' : List InputWord) (iw : InputWord) (s : State), s.initialised = true →
    (∀ w ∈ idle ++ idle', inputRst w = false ∧ inputTick w = false) →
    ∃ t u, runWords (idle ++ [iw]) s = some t ∧ runWords (idle' ++ [iw]) s = some u
      ∧ t.registers = u.registers
      ∧ (portsOfRun (idle ++ [iw]) s).getLast? = (portsOfRun (idle' ++ [iw]) s).getLast?
      ∧ (portsOfRun (idle ++ [iw]) s).length = idle.length + 1

/-- The clear tick does not sample, so the next tick compares with the code from before it: the movement is reported
one tick late, as one press of the residue's sign, and as nothing where it was undone or is 8 (the spec's own
inference, 70_reset_and_hazards.md section 3). -/
def Obligations.ClearTickMovementReportedLate : Prop :=
  ∀ (s : State) (during after : Sample), s.initialised = true → s.clr = true →
    ∃ t u, step (s.feed (lineTick during)) = .next t ∧ (s.feed (lineTick during)).raised = some .release
      ∧ t.registers = ⟨s.prev.toNat, false⟩
      ∧ step (t.feed (lineTick after)) = .next u ∧ u.prev.toNat = codeR111 after
      ∧ (t.feed (lineTick after)).raised = some
        (let k := ((codeR111 after : Int) - s.prev.toNat) % 16
         if k = 0 ∨ k = 8 then .none else if k < 8 then .pressCw else .pressCcw)

/-- R194: a wrong sample on a decoding tick, its code away from PREV by anything but 0 or 8, presses a key, and the next
decoding tick with the true sample back presses the opposite key. -/
def Obligations.GlitchPressesBothKeys : Prop :=
  ∀ (s : State) (actual wrong : Sample), s.initialised = true → s.clr = false → s.prev.toNat = codeR111 actual →
    ((codeR111 wrong : Int) - s.prev.toNat) % 16 ≠ 0 → ((codeR111 wrong : Int) - s.prev.toNat) % 16 ≠ 8 →
    ∃ a b c press, step (s.feed (lineTick wrong)) = .next a
      ∧ (s.feed (lineTick wrong)).raised = some press ∧ press.isPress = true
      ∧ step (a.feed (lineTick actual)) = .next b ∧ (a.feed (lineTick actual)).raised = some .release
      ∧ step (b.feed (lineTick actual)) = .next c ∧ (b.feed (lineTick actual)).raised = some (oppositePress press)
      ∧ c.prev = s.prev

/-- Every combination of PREV and CLR is reached, from every state, initialised or not, by some input words that begin
with an INIT; the state reached is initialised (the spec's own inference, 10_state.md section 4). -/
def Obligations.EveryRegisterValueReachable : Prop :=
  ∀ (s : State) (p : Code) (c : Bool), ∃ first rest t, inputRst first = true
    ∧ runWords (first :: rest) s = some t ∧ t.initialised = true ∧ t.registers = ⟨p.toNat, c⟩

/-- R22: S, curr, raw, delta and ev are wires. What a step shows, and the registers it leads to, are a function of the
registers (with whether an INIT has been taken) and of what is presented in that step; no value that an earlier step
showed has any part in it. -/
def Obligations.OutputsAreWires : Prop :=
  ∀ s u : State, s.registers = u.registers → s.initialised = u.initialised → s.presented = u.presented →
    s.shown = u.shown
    ∧ ∀ t, step s = .next t → ∃ v, step u = .next v ∧ t.registers = v.registers ∧ t.initialised = v.initialised

/-- The environment's time gate, in the reading of log 16: a pass m milliseconds after the deadline, m below the counter's
modulus, opens the gate exactly when m ≥ TICK_MS, and then leaves the lateness lower by exactly one interval; closed, it
leaves the deadline. -/
def Obligations.TimeGateAddsOneInterval : Prop :=
  ∀ (cfg : Config) (w m : Nat) (deadline : BitVec w), m < 2 ^ w →
    let now := deadline + BitVec.ofNat w m
    ((timeGate cfg now deadline).tick = true ↔ cfg.tickMs ≤ m)
    ∧ ((timeGate cfg now deadline).tick = true →
        (now - (timeGate cfg now deadline).deadline).toNat = m - cfg.tickMs)
    ∧ ((timeGate cfg now deadline).tick = false → (timeGate cfg now deadline).deadline = deadline)
end

