-- ==== Sys2Proof/Laws/Functions.lean ====
section
/-! SUPPORT. What the pure functions give, once: provers cite these instead of unfolding the functions. -/

namespace Sys2Proof.Machine

/-- The four levels and the sample field say the same (R61, R110). -/
@[simp] theorem pinsOfSample_sampleOfPins (p : Pins) : pinsOfSample (sampleOfPins p) = p := by
  obtain ⟨a, b, c, d⟩ := p
  revert a b c d
  decide

@[simp] theorem sampleOfPins_pinsOfSample (s : Sample) : sampleOfPins (pinsOfSample s) = s := by
  revert s
  decide

/-- The document's formula and the placement of the pins in the input word agree (R61, R62). -/
theorem compose_eq_sampleOfPins (p : Pins) : compose p = sampleOfPins p := by
  obtain ⟨a, b, c, d⟩ := p
  revert a b c d
  decide

@[simp] theorem compose_pinsOfSample (s : Sample) : compose (pinsOfSample s) = s := by
  rw [compose_eq_sampleOfPins, sampleOfPins_pinsOfSample]

/-- The table and its inverse (R114). -/
@[simp] theorem graylut_sampleOfCode (c : Code) : graylut (sampleOfCode c) = c := by
  revert c
  decide

/-- The machine's DIFF depends only on the residue of the difference: it is the masked 4-bit subtraction. -/
theorem diff_eq_masked_sub (p c : Code) :
    diff p c = if c - p = deltaNeverProduced then 0#4 else c - p := by
  revert p c
  decide

/-- DIFF never gives the pattern 0b1000 (R67). -/
theorem diff_ne_neverProduced (p c : Code) : diff p c ≠ deltaNeverProduced := by
  revert p c
  decide

@[simp] theorem diff_self (c : Code) : diff c c = 0#4 := by
  revert c
  decide

/-- A press is exactly what sets CLR (R133). -/
theorem keysel_isPress (d : Delta) : (keysel d).isPress = clrAfterDecode d := by
  revert d
  decide

/-- KEYSEL never gives RELEASE (R113). -/
theorem keysel_ne_release (d : Delta) : keysel d ≠ .release := by
  revert d
  decide

theorem keysel_eq_pressCw {d : Delta} (h : keysel d = .pressCw) : 0 < d.toInt := by
  revert d
  decide

theorem keysel_eq_pressCcw {d : Delta} (h : keysel d = .pressCcw) : d.toInt < 0 := by
  revert d
  decide

/-- The machine's code is the table's entry (R111). -/
theorem graylut_toNat (s : Sample) : (graylut s).toNat = codeR111 s := by
  revert s
  decide

/-- What KEYSEL and the CLR rule make of a delta that DIFF gives, over integers. -/
theorem keysel_toInt {d : Delta} (h : d ≠ deltaNeverProduced) :
    keysel d = keyselR113 d.toInt ∧ clrAfterDecode d = decide (d.toInt ≠ 0) := by
  revert d
  decide

end Sys2Proof.Machine
end

