-- ==== Sys2Proof/Laws/State.lean ====
section
/-! SUPPORT. One lemma per field per update of the state, so that no later proof unfolds a record update. -/

namespace Sys2Proof.Machine

@[simp] theorem State.writePrev_prev (v : Code) (s : State) : (s.writePrev v).prev = v := rfl
@[simp] theorem State.writePrev_clr (v : Code) (s : State) : (s.writePrev v).clr = s.clr := rfl
@[simp] theorem State.writePrev_initialised (v : Code) (s : State) : (s.writePrev v).initialised = s.initialised := rfl
@[simp] theorem State.writePrev_stimulus (v : Code) (s : State) : (s.writePrev v).stimulus = s.stimulus := rfl
@[simp] theorem State.writePrev_cycle (v : Code) (s : State) : (s.writePrev v).cycle = s.cycle := rfl

@[simp] theorem State.writeClr_prev (v : Bool) (s : State) : (s.writeClr v).prev = s.prev := rfl
@[simp] theorem State.writeClr_clr (v : Bool) (s : State) : (s.writeClr v).clr = v := rfl
@[simp] theorem State.writeClr_initialised (v : Bool) (s : State) : (s.writeClr v).initialised = s.initialised := rfl
@[simp] theorem State.writeClr_stimulus (v : Bool) (s : State) : (s.writeClr v).stimulus = s.stimulus := rfl
@[simp] theorem State.writeClr_cycle (v : Bool) (s : State) : (s.writeClr v).cycle = s.cycle := rfl

@[simp] theorem State.markInitialised_prev (s : State) : (s.markInitialised).prev = s.prev := rfl
@[simp] theorem State.markInitialised_clr (s : State) : (s.markInitialised).clr = s.clr := rfl
@[simp] theorem State.markInitialised_initialised (s : State) : (s.markInitialised).initialised = true := rfl
@[simp] theorem State.markInitialised_stimulus (s : State) : (s.markInitialised).stimulus = s.stimulus := rfl
@[simp] theorem State.markInitialised_cycle (s : State) : (s.markInitialised).cycle = s.cycle := rfl

@[simp] theorem State.advance_prev (s : State) : (s.advance).prev = s.prev := rfl
@[simp] theorem State.advance_clr (s : State) : (s.advance).clr = s.clr := rfl
@[simp] theorem State.advance_initialised (s : State) : (s.advance).initialised = s.initialised := rfl
@[simp] theorem State.advance_stimulus (s : State) : (s.advance).stimulus = s.stimulus.tail := rfl
@[simp] theorem State.advance_cycle (s : State) : (s.advance).cycle = s.cycle + 1 := rfl

@[simp] theorem State.place_prev (i : Instr) (s : State) : (s.place i).prev = s.prev := rfl
@[simp] theorem State.place_clr (i : Instr) (s : State) : (s.place i).clr = clrOf s i := rfl
@[simp] theorem State.place_initialised (i : Instr) (s : State) : (s.place i).initialised = s.initialised := rfl
@[simp] theorem State.place_stimulus (i : Instr) (s : State) : (s.place i).stimulus = stimulusOf i :: s.stimulus := rfl
@[simp] theorem State.place_cycle (i : Instr) (s : State) : (s.place i).cycle = s.cycle := rfl

@[simp] theorem State.feed_prev (iw : InputWord) (s : State) : (s.feed iw).prev = s.prev := rfl
@[simp] theorem State.feed_clr (iw : InputWord) (s : State) : (s.feed iw).clr = s.clr := rfl
@[simp] theorem State.feed_initialised (iw : InputWord) (s : State) : (s.feed iw).initialised = s.initialised := rfl
@[simp] theorem State.feed_stimulus (iw : InputWord) (s : State) : (s.feed iw).stimulus = [.clock iw] := rfl
@[simp] theorem State.feed_cycle (iw : InputWord) (s : State) : (s.feed iw).cycle = s.cycle := rfl

@[simp] theorem State.drive_state (ev : Event) (pins : Pins) (s t : State) : (s.drive ev pins t).state = t := rfl
@[simp] theorem State.drive_out (ev : Event) (pins : Pins) (s t : State) :
    (s.drive ev pins t).out = .gdd ev (diff s.prev (graylut (compose pins))) (graylut (compose pins)) := rfl

end Sys2Proof.Machine
end

