-- ==== Sys2Proof/Laws/Ops.lean ====
section
/-! SUPPORT. What each operation answers, once: next state and output. -/

namespace Sys2Proof.Machine

@[simp] theorem stateOf_next (e : Effect) : stateOf (.next e) = .next e.state := rfl
@[simp] theorem stateOf_fault (r : Fault) : stateOf (.fault r) = .fault r := rfl
@[simp] theorem stateOf_refused (r : Refusal) : stateOf (.refused r) = .refused r := rfl
@[simp] theorem outputOf_next (e : Effect) : outputOf (.next e) = some e.out := rfl
@[simp] theorem outputOf_refused (r : Refusal) : outputOf (.refused r) = none := rfl

/-- A next state comes from an effect with that state. -/
theorem stateOf_eq_next {x : Host.Outcome Effect Fault Refusal} {t : State} :
    stateOf x = .next t ↔ ∃ o, x = .next ⟨t, o⟩ := by
  constructor
  · intro h
    cases x with
    | next e =>
      cases h
      exact ⟨e.out, rfl⟩
    | fault r => cases h
    | refused r => cases h
  · rintro ⟨o, rfl⟩
    rfl

@[simp] theorem State.afterInit_of_initialised {s : State} (h : s.initialised = true) (e : Effect) :
    s.afterInit e = .next e := by
  simp [State.afterInit, h]

@[simp] theorem State.afterInit_of_not_initialised {s : State} (h : s.initialised = false) (e : Effect) :
    s.afterInit e = .refused .beforeFirstInit := by
  simp [State.afterInit, h]

/-- An operation that needs an INIT answers only after one, and then the effect given. -/
theorem State.afterInit_eq_next {s : State} {d e : Effect} (h : s.afterInit d = .next e) :
    s.initialised = true ∧ e = d := by
  unfold State.afterInit at h
  split at h
  · cases h
    exact ⟨‹_›, rfl⟩
  · cases h

/-- HOLD answers only after the first INIT, leaves the state and raises nothing (R131). -/
theorem performHold_next {pins : Pins} {s : State} {e : Effect} (h : performHold pins s = .next e) :
    s.initialised = true ∧ e = s.drive .none pins s :=
  State.afterInit_eq_next h

/-- CLEAR (R132). -/
theorem performClear_next {pins : Pins} {s : State} {e : Effect} (h : performClear pins s = .next e) :
    s.initialised = true ∧ e = s.drive .release pins (s.writeClr false) :=
  State.afterInit_eq_next h

/-- DECODE (R133). -/
theorem performDecode_next {pins : Pins} {s : State} {e : Effect} (h : performDecode pins s = .next e) :
    s.initialised = true ∧ e = s.drive (keysel (diff s.prev (graylut (compose pins)))) pins
      ((s.writeClr (clrAfterDecode (diff s.prev (graylut (compose pins))))).writePrev (graylut (compose pins))) :=
  State.afterInit_eq_next h

/-- KEYSEL answers only for a delta that DIFF can give (R113, U3). -/
theorem performKeysel_next {delta : Delta} {s : State} {e : Effect} (h : performKeysel delta s = .next e) :
    delta ≠ deltaNeverProduced ∧ e = ⟨s, .event (keysel delta)⟩ := by
  unfold performKeysel at h
  split at h
  · cases h
  · cases h
    exact ⟨‹_›, rfl⟩

end Sys2Proof.Machine
end

