-- ==== Sys2Proof/Laws/PerInstr.lean ====
section
/-! SUPPORT. Statements made per instruction. TableMatch: the encoding of every instruction lies in its row of
spec/opcode_table.json, and its bytes are those of the model's carrier (log 5). -/

namespace Sys2Proof.Laws.TableMatch

open Sys2Proof

/-- A row of spec/opcode_table.json: how many bits its encoding has, and its match and mask. -/
structure Row where
  width : Nat
  pattern : Nat
  mask : Nat
  deriving DecidableEq, Repr

/-- The row of an instruction, numbers as the table has them. -/
def rowOf : Instr → Row
  | .init _ _ _ => ⟨3, 0x4, 0x4⟩
  | .hold _ _ => ⟨3, 0x0, 0x6⟩
  | .clear _ => ⟨3, 0x3, 0x7⟩
  | .decode _ => ⟨3, 0x2, 0x7⟩
  | .diff _ _ => ⟨8, 0x00, 0x00⟩
  | .compose _ => ⟨4, 0x0, 0x0⟩
  | .graylut _ => ⟨4, 0x0, 0x0⟩
  | .keysel _ => ⟨4, 0x0, 0x0⟩

/-- The first byte of the encoding has no bit above the row's width and agrees with the row under its mask. -/
def Statement (i : Instr) : Prop :=
  ∃ word sample block : Byte, encode i = [word, sample, block] ∧ word.toNat < 2 ^ (rowOf i).width
    ∧ word.toNat &&& (rowOf i).mask = (rowOf i).pattern

/-- The control vector of a clock step is the whole of its first byte (R63). -/
theorem controlByte_toNat (rst tick clr : Bool) :
    (controlByte rst tick clr).toNat = 4 * rst.toNat + 2 * tick.toNat + clr.toNat := by
  revert rst tick clr
  decide

theorem init (tick clr : Bool) (pins : Pins) : Statement (.init tick clr pins) := by
  refine ⟨_, _, _, rfl, ?_, ?_⟩ <;> rw [controlByte_toNat] <;> cases tick <;> cases clr <;> simp [rowOf]

theorem hold (clr : Bool) (pins : Pins) : Statement (.hold clr pins) := by
  refine ⟨_, _, _, rfl, ?_, ?_⟩ <;> rw [controlByte_toNat] <;> cases clr <;> simp [rowOf]

theorem clear (pins : Pins) : Statement (.clear pins) := by
  refine ⟨_, _, _, rfl, ?_, ?_⟩ <;> rw [controlByte_toNat] <;> simp [rowOf]

theorem decode (pins : Pins) : Statement (.decode pins) := by
  refine ⟨_, _, _, rfl, ?_, ?_⟩ <;> rw [controlByte_toNat] <;> simp [rowOf]

theorem diff (prev curr : Code) : Statement (.diff prev curr) :=
  ⟨_, _, _, rfl, BitVec.isLt _, Nat.and_zero _⟩

theorem nibbleByte_lt (v : BitVec 4) : (nibbleByte v).toNat < 2 ^ 4 := by
  revert v
  decide

theorem compose (pins : Pins) : Statement (.compose pins) :=
  ⟨_, _, _, rfl, nibbleByte_lt _, Nat.and_zero _⟩

theorem graylut (s : Sample) : Statement (.graylut s) :=
  ⟨_, _, _, rfl, nibbleByte_lt _, Nat.and_zero _⟩

theorem keysel (delta : Delta) : Statement (.keysel delta) :=
  ⟨_, _, _, rfl, nibbleByte_lt _, Nat.and_zero _⟩

end Sys2Proof.Laws.TableMatch
end

