-- ==== Sys2Proof/Laws/Step.lean ====
section
/-! SUPPORT. What a step can do: the bytes that are formed always decode, and which operation they select. -/

namespace Sys2Proof.Machine

/-- The bytes of a clock step decode to what its control vector selects (R63). -/
theorem decode_clock (rst tick clr : Bool) (s : Sample) :
    decode [controlByte rst tick clr, nibbleByte s, 0#8]
      = .ok (decodeControl (controlVector rst tick clr) (pinsOfSample s)) := by
  revert rst tick clr s
  decide

theorem decode_diff (w : BitVec 8) :
    decode [w, 0#8, 1#8] = .ok (.diff (w.extractLsb' 4 4) (w.extractLsb' 0 4)) := by
  simp [decode, decodeFunction]

theorem decode_compose (w : BitVec 4) : decode [nibbleByte w, 0#8, 2#8] = .ok (.compose (pinsOfSample w)) := by
  revert w
  decide

theorem decode_graylut (w : BitVec 4) : decode [nibbleByte w, 0#8, 3#8] = .ok (.graylut w) := by
  revert w
  decide

theorem decode_keysel {w : BitVec 4} (h : w ≠ deltaNeverProduced) :
    decode [nibbleByte w, 0#8, 4#8] = .ok (.keysel w) := by
  revert w
  decide

/-- A step on an input word runs what its control vector selects (R63). -/
theorem step_clock {s : State} {iw : InputWord} (h : s.presented = .clock iw) :
    step s = exec (decodeControl (controlVector (inputRst iw) (inputTick iw) s.clr)
      (pinsOfSample (inputSample iw))) s.advance := by
  unfold step State.fetchBytes
  rw [h]
  simp only [stimulusBytes, decode_clock]

/-- exec is the next-state half of perform: where exec answers a next state, perform answers it with an output. -/
theorem exec_eq_stateOf_perform (i : Instr) (s : State) : exec i s = stateOf (perform i s) := by
  cases i <;> rfl

/-- step is the next-state half of performStep. -/
theorem step_eq_stateOf_performStep (s : State) : step s = stateOf s.performStep := by
  unfold step State.performStep
  cases decode s.fetchBytes with
  | error reason => rfl
  | ok i => exact exec_eq_stateOf_perform i s.advance

/-- A step that answers a next state also shows something, and what (R10, R134). -/
theorem performStep_of_step_next {s t : State} (h : step s = .next t) :
    ∃ o, s.performStep = .next ⟨t, o⟩ ∧ s.shown = some o := by
  rw [step_eq_stateOf_performStep, stateOf_eq_next] at h
  obtain ⟨o, h⟩ := h
  exact ⟨o, h, by rw [State.shown, h, outputOf_next]⟩

/-- A step on an input word performs what its control vector selects (R63). -/
theorem performStep_clock {s : State} {iw : InputWord} (h : s.presented = .clock iw) :
    s.performStep = perform (decodeControl (controlVector (inputRst iw) (inputTick iw) s.clr)
      (pinsOfSample (inputSample iw))) s.advance := by
  unfold State.performStep State.fetchBytes
  rw [h]
  simp only [stimulusBytes, decode_clock]

/-- The input words the environment writes (R72) have the fields they are written with. -/
@[simp] theorem inputRst_inputWord (rst tick : Bool) (pins : Pins) : inputRst (inputWord rst tick pins) = rst := by
  obtain ⟨a, b, c, d⟩ := pins
  revert rst tick a b c d
  decide

@[simp] theorem inputTick_inputWord (rst tick : Bool) (pins : Pins) : inputTick (inputWord rst tick pins) = tick := by
  obtain ⟨a, b, c, d⟩ := pins
  revert rst tick a b c d
  decide

@[simp] theorem inputSample_inputWord (rst tick : Bool) (pins : Pins) :
    inputSample (inputWord rst tick pins) = sampleOfPins pins := by
  obtain ⟨a, b, c, d⟩ := pins
  revert rst tick a b c d
  decide

@[simp] theorem State.presented_feed (iw : InputWord) (s : State) : (s.feed iw).presented = .clock iw := rfl

/-- The three fields of an input word and CLR select the operation, as a chain of conditions (R63). -/
theorem decodeControl_controlVector (rst tick clr : Bool) (pins : Pins) :
    decodeControl (controlVector rst tick clr) pins
      = if rst then .init tick clr pins else if tick then (if clr then .clear pins else .decode pins)
        else .hold clr pins := by
  cases rst <;> cases tick <;> cases clr <;> rfl

end Sys2Proof.Machine
end

