-- ==== Sys2Proof/Tests/Slice0.lean ====
section
/-! SUPPORT. The model's own tests: expected results are those of spec/95_test_vectors.md (named at each test) or are
read off the rules by hand. Each runs at most one step. At the end, for every statement with hypotheses, a state and
operands that meet all of them. -/

namespace Sys2Proof.Tests

open Sys2Proof Sys2Proof.Machine

/-! ### Helpers -/

/-- An initialised state with these registers and these inputs placed. -/
def st (prev : Code) (clr : Bool) (words : List InputWord) : State :=
  { prev := prev, clr := clr, initialised := true, stimulus := words.map .clock, cycle := 0 }

/-- The same before the first INIT. -/
def stRaw (prev : Code) (clr : Bool) (words : List InputWord) : State := { st prev clr words with initialised := false }

/-- The registers an outcome leads to, if it is a next state. -/
def registersOf : Host.Outcome State Fault Refusal → Option Registers
  | .next t => some t.registers
  | .fault _ => Option.none
  | .refused _ => Option.none

/-- The registers the coming step leads to, and the ports of GDD in it. -/
def stepAndPorts (s : State) : Option Registers × Option Ports := (registersOf (step s), s.ports)

/-- Whether an outcome is a next state. -/
def isNext : Host.Outcome State Fault Refusal → Bool
  | .next _ => true
  | .fault _ => false
  | .refused _ => false

/-- The reason of a refusal. -/
def refusal : Host.Outcome State Fault Refusal → Option Refusal
  | .next _ => Option.none
  | .fault _ => Option.none
  | .refused r => some r

/-! ### Well-formedness: each check refuses an ill-formed term (U3) -/

theorem test_wf_refuses_keysel_of_minus_eight : (Instr.keysel 0b1000#4).wellFormed = false := by decide
theorem test_wf_accepts_keysel_of_minus_seven : (Instr.keysel 0b1001#4).wellFormed = true := by decide

/-! ### Decoding: words written out from R63, R71 -/

-- CV = 1tc with t = 1, c = 1 (R63): bits 111.
theorem test_decode_init : decode [0b00000111#8, 0b00000110#8, 0#8] = .ok (.init true true ⟨false, true, true, false⟩) := by rfl
-- CV = 00c with c = 1.
theorem test_decode_hold : decode [0b00000001#8, 0b00000101#8, 0#8] = .ok (.hold true ⟨true, false, true, false⟩) := by rfl
-- CV = 011.
theorem test_decode_clear : decode [0b00000011#8, 0b00000011#8, 0#8] = .ok (.clear ⟨true, true, false, false⟩) := by rfl
-- CV = 010.
theorem test_decode_decode : decode [0b00000010#8, 0b00001110#8, 0#8] = .ok (.decode ⟨false, true, true, true⟩) := by rfl
-- ppppcccc: section 2.1's "mid values" word 0b01011011, prev 5, curr 11.
theorem test_decode_diff : decode [0b01011011#8, 0#8, 1#8] = .ok (.diff 5#4 11#4) := by rfl
-- dcba: d = pin4, a = pin1.
theorem test_decode_compose : decode [0b00001000#8, 0#8, 2#8] = .ok (.compose ⟨false, false, false, true⟩) := by rfl
theorem test_decode_graylut : decode [0b00000111#8, 0#8, 3#8] = .ok (.graylut 7#4) := by rfl
-- delta −7 is 0b1001 (R67).
theorem test_decode_keysel : decode [0b00001001#8, 0#8, 4#8] = .ok (.keysel 0b1001#4) := by rfl

-- The table's words, bit 0 lowest: INIT 0x4, HOLD 0x0, CLEAR 0x3, DECODE 0x2.
theorem test_table_words : (decodeTableWord 8 4).map mnemonicOf = some "INIT" ∧ (decodeTableWord 8 0).map mnemonicOf = some "HOLD"
    ∧ (decodeTableWord 8 3).map mnemonicOf = some "CLEAR" ∧ (decodeTableWord 8 2).map mnemonicOf = some "DECODE" := by decide

-- Each named rejection of the carrier is reached (log 5); KEYSEL of 0b1000 is U3.
theorem test_rejections :
    decode [0#8] = .error .length ∧ decode [8#8, 0#8, 0#8] = .error .controlHighBits
    ∧ decode [0#8, 16#8, 0#8] = .error .sampleHighBits ∧ decode [16#8, 0#8, 3#8] = .error .operandHighBits
    ∧ decode [0#8, 1#8, 1#8] = .error .strayOperand ∧ decode [0#8, 0#8, 5#8] = .error .noSuchBlock
    ∧ decode [8#8, 0#8, 4#8] = .error .keyselMinusEight := ⟨rfl, rfl, rfl, rfl, rfl, rfl, rfl⟩

/-! ### One step of each operation: rows of section 2.5 -/

-- Row 2: INIT 0b0000 with a key down.
theorem test_init_row2 : stepAndPorts (st 5 true [0b100000#6]) = (some ⟨10, false⟩, some ⟨.none, 10, 5⟩) := by decide
-- Row 3: rst and tick together, rst wins.
theorem test_init_row3 : stepAndPorts (st 9 false [0b110110#6]) = (some ⟨14, false⟩, some ⟨.none, 14, 5⟩) := by decide
-- Row 5: HOLD in KeyDown.
theorem test_hold_row5 : stepAndPorts (st 9 true [0b000011#6]) = (some ⟨9, true⟩, some ⟨.none, 8, -1⟩) := by decide
-- R192: HOLD before the first INIT.
theorem test_hold_before_init : refusal (step (stRaw 9 true [0b000011#6])) = some .beforeFirstInit := by decide
-- Row 6: CLEAR, pins ignored, PREV kept.
theorem test_clear_row6 : stepAndPorts (st 15 true [0b010011#6]) = (some ⟨15, false⟩, some ⟨.release, 8, -7⟩) := by decide
-- Row 11: DECODE, one step up across the wrap.
theorem test_decode_row11 : stepAndPorts (st 15 false [0b011111#6]) = (some ⟨0, true⟩, some ⟨.pressCw, 0, 1⟩) := by decide
-- Row 12: DECODE, distance 8.
theorem test_decode_row12 : stepAndPorts (st 0 false [0b010011#6]) = (some ⟨8, false⟩, some ⟨.none, 8, 0⟩) := by decide

/-! ### The functions: sections 2.1, 2.2, 2.4 -/

-- Section 2.1: raw = −13 gives +3; raw = +9 gives −7.
theorem test_diff_wraps : (diff 14 1).toInt = 3 ∧ (diff 0 9).toInt = -7 := by decide
-- Section 2.1: boundary +8 and −8 give 0.
theorem test_diff_boundary : diff 7 15 = 0#4 ∧ diff 12 4 = 0#4 := by decide
-- Section 2.2, row S = 7 (R110's example).
theorem test_compose_example : compose ⟨true, true, true, false⟩ = 7#4 := by decide
-- R111's examples.
theorem test_graylut_examples : graylut 15 = 0#4 ∧ graylut 7 = 15#4 ∧ graylut 0 = 10#4 := by decide
-- Section 2.4.
theorem test_keysel_examples : keysel 0b0011#4 = .pressCw ∧ keysel 0b1111#4 = .pressCcw ∧ keysel 0#4 = .none := by decide
theorem test_keysel_of_minus_eight_refused : refusal (exec (.keysel 0b1000#4) (st 0 false [])) = some .keyselMinusEight := by decide

/-! ### From reset: each row's table word, placed, runs as the first instruction -/

theorem test_placed_init : isNext (step (State.reset.withFetchWord 8 4)) = true := by decide
theorem test_placed_hold_clear_decode : isNext (step (State.reset.withFetchWord 8 0)) = true
    ∧ isNext (step (State.reset.withFetchWord 8 3)) = true ∧ isNext (step (State.reset.withFetchWord 8 2)) = true := by decide
-- With the block byte given, the function rows: DIFF(14, 1), COMPOSE, GRAYLUT(0), KEYSEL(−1).
theorem test_placed_functions : isNext (step (State.reset.withFetchWord 24 0x0100E1)) = true
    ∧ isNext (step (State.reset.withFetchWord 24 0x020007)) = true ∧ isNext (step (State.reset.withFetchWord 24 0x030000)) = true
    ∧ isNext (step (State.reset.withFetchWord 24 0x04000F)) = true := by decide

/-! ### Witnesses: the hypotheses of each statement can be met -/

theorem test_witness_DecodeOfEncode : (Instr.keysel 0b0111#4).wellFormed = true := by decide
theorem test_witness_EncodeOfDecode : decode [7#8, 15#8, 0#8] = .ok (.init true true ⟨true, true, true, true⟩) := by rfl
-- One input word for each branch of the map: INIT, HOLD, CLEAR, DECODE.
theorem test_witness_ControlVectorSelectsOneOperation :
    (st 3 true [0b111111#6]).presented = .clock 0b111111#6 ∧ inputRst 0b111111#6 = true
    ∧ (st 3 true [0b001111#6]).presented = .clock 0b001111#6 ∧ inputRst 0b001111#6 = false ∧ inputTick 0b001111#6 = false
    ∧ (st 3 true [0b010000#6]).presented = .clock 0b010000#6 ∧ inputTick 0b010000#6 = true ∧ (st 3 true [0b010000#6]).clr = true
    ∧ (st 3 false [0b010000#6]).presented = .clock 0b010000#6 ∧ (st 3 false [0b010000#6]).clr = false := by decide
theorem test_witness_StepRunsDecodedInstruction :
    decode (st 0 false [0b011110#6]).fetchBytes = .ok (.decode ⟨false, true, true, true⟩) ∧ (st 0 false []).stimulus = [] := ⟨rfl, rfl⟩
theorem test_witness_PresentedWordsDecode : ({ st 0 false [] with stimulus := [.keysel 0b1001#4] } : State).presented ≠ .keysel 0b1000#4
    ∧ ({ st 0 false [] with stimulus := [.keysel 0b1000#4] } : State).presented = .keysel 0b1000#4 := by decide
theorem test_witness_PlacedWordRunsNext : decodeTableWord 8 3 = some (.clear ⟨false, false, false, false⟩) := by rfl
theorem test_witness_BoundaryMovementIsLost :
    (st 15 false []).initialised = true ∧ codeOfPins ⟨true, true, false, true⟩ = ((st 15 false []).prev.toNat + 8) % 16 := by decide
theorem test_witness_MultiStepMovementAliases : (-7 : Int) ≤ -7 ∧ (-7 : Int) ≤ 7 ∧ (-7 : Int) ≤ 7 ∧ (7 : Int) ≤ 7 := by decide
theorem test_witness_KeyselFollowsSign : (0b1001#4 : Delta) ≠ 0b1000#4
    ∧ (shownBy (.clear ⟨true, true, true, true⟩) (st 0 true [])).map Output.raised = some .release := by decide
theorem test_witness_EventWireEncoding : (st 0 false [0b011110#6]).presented = .clock 0b011110#6 ∧ ∃ t, step (st 0 false [0b011110#6]) = .next t :=
  ⟨rfl, _, rfl⟩
theorem test_witness_InitLoadsPrevAndClearsClr : (stRaw 5 true [0b110000#6]).presented = .clock 0b110000#6 ∧ inputRst 0b110000#6 = true := by decide
theorem test_witness_HoldKeepsRegisters : (st 5 true [0b000001#6]).initialised = true ∧ (st 5 true [0b000001#6]).presented = .clock 0b000001#6
    ∧ inputRst 0b000001#6 = false ∧ inputTick 0b000001#6 = false := by decide
theorem test_witness_ClearRaisesRelease : (st 5 true [0b011111#6]).initialised = true ∧ (st 5 true [0b011111#6]).presented = .clock 0b011111#6
    ∧ inputRst 0b011111#6 = false ∧ inputTick 0b011111#6 = true ∧ (st 5 true [0b011111#6]).clr = true := by decide
theorem test_witness_DecodeComparesAndUpdates : (st 5 false [0b010000#6]).initialised = true ∧ (st 5 false [0b010000#6]).presented = .clock 0b010000#6
    ∧ inputRst 0b010000#6 = false ∧ inputTick 0b010000#6 = true ∧ (st 5 false [0b010000#6]).clr = false := by decide
theorem test_witness_RefusedBeforeFirstInit : (stRaw 15 true []).initialised = false := by decide
theorem test_witness_KeyselShowsEventOrRefuses : (0b0111#4 : Delta) ≠ 0b1000#4 := by decide
-- An evaluation that completes; the same operands in a second state; a step at which KEYSEL of −7 is presented.
theorem test_witness_FunctionCallsChangeNothing :
    isFunction (.diff 0 8) = true ∧ isNext (exec (.diff 0 8) (st 3 true [])) = true ∧ shownBy (.diff 0 8) (stRaw 4 false []) ≠ none
    ∧ isNext (step { st 3 true [] with stimulus := [.keysel 0b1001#4, .clock 0b011110#6] }) = true
    ∧ ∀ iw, Stimulus.keysel 0b1001#4 ≠ .clock iw := ⟨rfl, rfl, by decide, rfl, by simp⟩
theorem test_witness_CodeAndDeltaInEveryStep : (st 8 true [0b001010#6]).presented = .clock 0b001010#6 ∧ ∃ t, step (st 8 true [0b001010#6]) = .next t :=
  ⟨rfl, _, rfl⟩
theorem test_witness_HoldAndClearIgnorePins :
    (∃ t, exec (.hold true ⟨true, true, true, true⟩) (st 1 true []) = .next t) ∧ (∃ t, exec (.hold true ⟨false, true, true, true⟩) (st 1 true []) = .next t)
    ∧ (∃ t, exec (.clear ⟨true, true, true, true⟩) (st 1 true []) = .next t) ∧ ∃ t, exec (.clear ⟨false, false, false, false⟩) (st 1 true []) = .next t :=
  ⟨⟨_, rfl⟩, ⟨_, rfl⟩, ⟨_, rfl⟩, _, rfl⟩
-- One completing instruction for each clause.
theorem test_witness_RegisterWriters :
    ([Instr.init true true ⟨true, true, true, true⟩, .hold true ⟨true, true, true, true⟩, .clear ⟨true, true, true, true⟩,
      .decode ⟨false, false, false, false⟩, .diff 0 15, .compose ⟨true, false, false, true⟩, .graylut 15, .keysel 7].map
        fun i => isNext (exec i (st 15 true []))) = List.replicate 8 true := by decide
theorem test_witness_LastInitCounts : (∀ iw ∈ [0b100000#6, 0b110101#6], inputRst iw = true) ∧ inputRst 0b101111#6 = true := by decide
theorem test_witness_InitDropsOwedRelease : (st 15 true [0b101101#6]).clr = true ∧ (st 15 true [0b101101#6]).presented = .clock 0b101101#6
    ∧ inputRst 0b101101#6 = true ∧ ∀ w ∈ [0b010000#6, 0b001111#6], inputRst w = false := by decide
theorem test_witness_StepKeepsInvariant : (st 0 false [0b011110#6]).Inv ∧ ∃ t, step (st 0 false [0b011110#6]) = .next t :=
  ⟨rfl, _, rfl⟩
-- No key held and one pressed; a key held and released.
theorem test_witness_StepKeepsHeldKeyIsClr :
    (st 0 false [0b011110#6]).Inv ∧ (st 0 true [0b011110#6]).Inv ∧ inputRst 0b011110#6 = false
    ∧ (st 0 false [0b011110#6]).presented = .clock 0b011110#6 ∧ (st 0 true [0b011110#6]).presented = .clock 0b011110#6
    ∧ (∃ t, step (st 0 false [0b011110#6]) = .next t) ∧ ∃ t, step (st 0 true [0b011110#6]) = .next t :=
  ⟨rfl, rfl, rfl, rfl, rfl, ⟨_, rfl⟩, _, rfl⟩
-- Two states that differ in the pending inputs and in the step count.
theorem test_witness_OutputsAreWires :
    let s := st 4 true [0b011110#6]
    let u := { st 4 true [0b011110#6, 0b000000#6] with cycle := 7 }
    s.registers = u.registers ∧ s.initialised = u.initialised ∧ s.presented = u.presented ∧ s ≠ u ∧ isNext (step s) = true := by decide
theorem test_witness_StepIsTotalAfterInit : (st 0 false [0b011110#6]).initialised = true ∧ (st 0 false [0b011110#6]).presented ≠ .keysel 0b1000#4 := by decide
theorem test_witness_ClockStepIsTheStepFunction : (st 4 false [0b011010#6]).initialised = true ∧ (st 4 false [0b011010#6]).presented = .clock 0b011010#6 := by decide
theorem test_witness_RunsRefineTheStepFunction : (st 4 false []).initialised = true := by decide
-- Each branch of the graph: INIT before the first INIT; HOLD; CLEAR; DECODE with delta 0, +7, −7.
theorem test_witness_TransitionGraph :
    (stRaw 0 true [0b111111#6]).presented = .clock 0b111111#6 ∧ inputRst 0b111111#6 = true
    ∧ (st 0 true [0b000000#6]).initialised = true ∧ inputRst 0b000000#6 = false ∧ inputTick 0b000000#6 = false
    ∧ (st 0 true [0b010000#6]).clr = true ∧ inputTick 0b010000#6 = true ∧ inputRst 0b010000#6 = false
    ∧ diffR90 0 (codeR111 (inputSample 0b010011#6)) = 0 ∧ diffR90 0 (codeR111 (inputSample 0b011011#6)) = 7
    ∧ diffR90 0 (codeR111 (inputSample 0b010010#6)) = -7 := by decide
theorem test_witness_PressThenRelease : (st 0 true []).initialised = true ∧ ∀ iw ∈ [0b011110#6, 0b000000#6, 0b010011#6], inputRst iw = false := by decide
theorem test_witness_PressRate : (st 0 false []).initialised = true ∧ ∀ iw ∈ [0b011110#6, 0b011100#6, 0b011101#6], inputRst iw = false := by decide
-- The three ways in: INIT, DECODE with delta 0 (CLR stays 0), DECODE with a press (CLR becomes 1).
theorem test_witness_SecondTickIsIdempotent :
    (registersOf (step ((stRaw 9 true []).feed (lineInit 0b1111#4)))).map Registers.clr = some false
    ∧ (st 0 false []).clr = false ∧ (registersOf (step ((st 0 false []).feed (lineTick 0b1111#4)))).map Registers.clr = some false
    ∧ (registersOf (step ((st 0 false []).feed (lineTick 0b1110#4)))).map Registers.clr = some true := by decide
theorem test_witness_OneDetentOneStroke : (st 15 false []).initialised = true ∧ (st 15 false []).clr = false
    ∧ codeR111 0b1111#4 = ((st 15 false []).prev.toNat + 1) % 16 ∧ codeR111 0b0111#4 = ((st 0 false []).prev.toNat + 15) % 16 := by decide
theorem test_witness_HoldStepsChangeNothing : (st 9 true []).initialised = true
    ∧ ∀ iw ∈ [0b000101#6, 0b001111#6], inputRst iw = false ∧ inputTick iw = false := by decide
theorem test_witness_PinsBetweenSamplesLeaveNoTrace : (st 9 true []).initialised = true
    ∧ ∀ iw ∈ [0b000101#6] ++ [0b001111#6, 0b000000#6], inputRst iw = false ∧ inputTick iw = false := by decide
theorem test_witness_ClearTickMovementReportedLate : (st 1 true []).initialised = true ∧ (st 1 true []).clr = true := by decide
theorem test_witness_GlitchPressesBothKeys : (st 0 false []).initialised = true ∧ (st 0 false []).clr = false
    ∧ (st 0 false []).prev.toNat = codeR111 0b1111#4 ∧ ((codeR111 0b1011#4 : Int) - (st 0 false []).prev.toNat) % 16 ≠ 0
    ∧ ((codeR111 0b1011#4 : Int) - (st 0 false []).prev.toNat) % 16 ≠ 8 := by decide
-- Lateness just below, at and far above the interval, on an 8-bit counter.
theorem test_witness_TimeGateAddsOneInterval : (9 < 2 ^ 8 ∧ (timeGate config (5#8 + 9#8) 5#8).tick = false)
    ∧ (10 < 2 ^ 8 ∧ (timeGate config (5#8 + 10#8) 5#8).tick = true)
    ∧ (255 < 2 ^ 8 ∧ (timeGate config (5#8 + 255#8) 5#8).tick = true) := by decide

end Sys2Proof.Tests
end

section
/-! The table ROM of GDD (spec/20_memory.md R40) and its one reader, GRAYLUT. -/

namespace Sys2Proof.Machine

/-- Settles O8: GRAYLUT is the ROM read by definition (R111), and the law `graylut_toNat` gives its entry, which is the
entry of R40's list at the sample. -/
theorem graylutReadsTheTable : Obligations.GraylutReadsTheTable := by
  unfold Obligations.GraylutReadsTheTable
  intro s
  have hread : memRead s = graylut s := rfl
  have hentry : (graylut s).toNat = tableR40.getD s.toNat 0 := graylut_toNat s
  exact ⟨hread, hentry⟩

end Sys2Proof.Machine
end

section
/-! The operation map and the value encodings of GDD's interface (spec/30_encoding.md R63, R66, R67, R68, R70). First
the facts about DIFF and the ports of a clock step, then the statements. -/

namespace Sys2Proof.Machine

/-! ### DIFF over integers, and its wires -/

/-- The five lines of R90 keep a difference of two codes within [−7, 7] (R67, R93). -/
theorem diffR90_bounds (prev curr : Code) :
    -7 ≤ diffR90 prev.toNat curr.toNat ∧ diffR90 prev.toNat curr.toNat ≤ 7 := by
  have hp := prev.isLt
  have hc := curr.isLt
  unfold diffR90
  dsimp only
  split_ifs <;> omega

/-- The wires of DIFF carry the integer result of R90. -/
theorem diff_eq_ofInt_diffR90 (prev curr : Code) : diff prev curr = BitVec.ofInt 4 (diffR90 prev.toNat curr.toNat) :=
  rfl

/-- Read as two's complement, the wires of DIFF are the integer result of R90: 4 bits hold [−7, 7] (R67). -/
theorem diff_toInt (prev curr : Code) : (diff prev curr).toInt = diffR90 prev.toNat curr.toNat := by
  obtain ⟨hlo, hhi⟩ := diffR90_bounds prev curr
  rw [diff_eq_ofInt_diffR90]
  exact BitVec.toInt_ofInt_eq_self (by decide) (by omega) (by omega)

/-- The wire test for `delta > 0` is that of the signed value (R67). -/
theorem deltaPositive_eq (d : Delta) : deltaPositive d = decide (d.toInt > 0) := by
  revert d
  decide

/-- The wire test for `delta < 0` is that of the signed value (R67). -/
theorem deltaNegative_eq (d : Delta) : deltaNegative d = decide (d.toInt < 0) := by
  revert d
  decide

/-- The 5-bit subtraction does not wrap: two zero-extended codes differ by less than 16 (R66). -/
theorem rawBits_toInt (prev curr : Code) : (rawBits prev curr).toInt = (curr.toNat : Int) - prev.toNat := by
  have hp := prev.isLt
  have hc := curr.isLt
  rw [rawBits, BitVec.toInt_sub, BitVec.toInt_setWidth, BitVec.toInt_setWidth, ← Int.sub_bmod]
  exact Int.bmod_eq_of_le (by omega) (by omega)

/-! ### What every clock step shows -/

/-- Whichever operation the control vector selects, where it completes it drives `code` and `delta` from the sample and
from PREV before it (R70). -/
theorem perform_decodeControl_next {cv : ControlVector} {pins : Pins} {s : State} {e : Effect}
    (h : perform (decodeControl cv pins) s = .next e) : ∃ ev t, e = s.drive ev pins t := by
  unfold decodeControl at h
  split_ifs at h
  · -- INIT
    cases h
    exact ⟨_, _, rfl⟩
  · -- HOLD
    exact ⟨_, _, (performHold_next h).2⟩
  · -- CLEAR
    exact ⟨_, _, (performClear_next h).2⟩
  · -- DECODE
    exact ⟨_, _, (performDecode_next h).2⟩

/-- The ports of a clock step that completes: one event, and `delta` and `code` as R70 has them. -/
theorem shown_clock {s t : State} {iw : InputWord} (hp : s.presented = .clock iw) (h : step s = .next t) :
    ∃ ev, s.shown = some (.gdd ev (diff s.prev (graylut (inputSample iw))) (graylut (inputSample iw))) := by
  obtain ⟨o, hperf, hshown⟩ := performStep_of_step_next h
  rw [performStep_clock hp] at hperf
  obtain ⟨ev, u, hdrive⟩ := perform_decodeControl_next hperf
  have hout : o = (s.advance.drive ev (pinsOfSample (inputSample iw)) u).out := congrArg Effect.out hdrive
  exact ⟨ev, by simpa [hout] using hshown⟩

/-! ### The operation map -/

/-- Which operation a control vector selects does not depend on the pins (R63). -/
theorem mnemonicOf_decodeControl (cv : ControlVector) (pins : Pins) :
    mnemonicOf (decodeControl cv pins)
      = if cv[2] then "INIT" else if !cv[1] then "HOLD" else if cv[0] then "CLEAR" else "DECODE" := by
  unfold decodeControl
  split_ifs <;> rfl

/-! ### The statements -/

/-- Settles O4: the eight control vectors against the four rows by evaluation; the step by the law `step_clock` and the
order in which rst, tick and CLR are asked. -/
theorem controlVectorSelectsOneOperation : Obligations.ControlVectorSelectsOneOperation := by
  unfold Obligations.ControlVectorSelectsOneOperation
  constructor
  · intro cv pins
    rw [mnemonicOf_decodeControl]
    revert cv
    decide
  · intro s iw h
    rw [step_clock h, decodeControl_controlVector]
    cases inputTick iw <;> rfl

/-- Settles O37: `shown_clock`, with `code` and `delta` read as integers. -/
theorem codeAndDeltaInEveryStep : Obligations.CodeAndDeltaInEveryStep := by
  unfold Obligations.CodeAndDeltaInEveryStep
  intro s t iw hp h
  obtain ⟨ev, hshown⟩ := shown_clock hp h
  exact ⟨ev, by simp [State.ports, hshown, Output.ports, diff_toInt, graylut_toNat]⟩

/-- Settles O19: the subtraction is exact by `rawBits_toInt`, and a code is at most 15. -/
theorem rawDifferenceExact : Obligations.RawDifferenceExact := by
  unfold Obligations.RawDifferenceExact
  intro prev curr
  have hp := prev.isLt
  have hc := curr.isLt
  rw [rawBits_toInt]
  omega

/-- Settles O25: the wire tests are those of the signed value, which is R90's by `diff_toInt`. -/
theorem deltaWireEncoding : Obligations.DeltaWireEncoding := by
  unfold Obligations.DeltaWireEncoding
  intro prev curr
  refine ⟨diff_ne_neverProduced prev curr, diff_eq_ofInt_diffR90 prev curr, ?_, ?_⟩
  · rw [deltaPositive_eq, diff_toInt]
  · rw [deltaNegative_eq, diff_toInt]

/-- Settles O26: the bits are those of the definition, and the event is the one that `shown_clock` finds on the
ports. -/
theorem eventWireEncoding : Obligations.EventWireEncoding := by
  unfold Obligations.EventWireEncoding
  refine ⟨⟨rfl, rfl, rfl, rfl⟩, fun s t iw hp h => ?_⟩
  obtain ⟨ev, hshown⟩ := shown_clock hp h
  exact ⟨ev, _, _, hshown⟩

end Sys2Proof.Machine
end

section
/-! DIFF's laws (spec/40_graydiff.md R90, R95, R97): the five lines of R90 over integers, the boundary distance 8, and
what DECODE makes of a movement by 8. First the facts about DIFF and DECODE, then the statements. -/

namespace Sys2Proof.Machine

/-! ### DIFF at the boundary, and its order of operands -/

/-- Exchanging the operands of R90 exchanges its two wraps and keeps its boundary, which is symmetric (R95). -/
theorem diffR90_antisymm (prev curr : Int) : diffR90 prev curr = -diffR90 curr prev := by
  unfold diffR90
  dsimp only
  split_ifs <;> omega

/-- The masked pattern: where the 4-bit subtraction gives 0b1000, DIFF gives 0 (R92). -/
theorem diff_of_sub_eq_neverProduced {prev curr : Code} (h : curr - prev = deltaNeverProduced) :
    diff prev curr = 0#4 := by
  rw [diff_eq_masked_sub, if_pos h]

/-- A movement up by 8 reads as 0 (R97). -/
@[simp] theorem diff_add_eight (p : Code) : diff p (p + 8#4) = 0#4 :=
  diff_of_sub_eq_neverProduced (add_sub_cancel_left p 8#4)

/-- A movement down by 8 reads as 0: 8 is its own negative modulo 16 (R97). -/
@[simp] theorem diff_add_eight_left (p : Code) : diff (p + 8#4) p = 0#4 := by
  have hback : p + 8#4 + 8#4 = p := by rw [BitVec.add_assoc]; exact BitVec.add_zero p
  calc diff (p + 8#4) p = diff (p + 8#4) (p + 8#4 + 8#4) := by rw [hback]
    _ = 0#4 := diff_add_eight (p + 8#4)

/-! ### What DECODE samples and does -/

/-- COMPOSE gives the sample the number that R110 gives it. -/
theorem compose_toNat (p : Pins) :
    (compose p).toNat = pinNat p.pin1 + 2 * pinNat p.pin2 + 4 * pinNat p.pin3 + 8 * pinNat p.pin4 := by
  obtain ⟨a, b, c, d⟩ := p
  revert a b c d
  decide

/-- The code that a clock step computes from its pins is the table's entry at their number (R110, R111). -/
theorem graylut_compose_toNat (p : Pins) : (graylut (compose p)).toNat = codeOfPins p := by
  rw [graylut_toNat, codeR111, compose_toNat, codeOfPins]

/-- After the first INIT, DECODE always completes, with the event, the CLR and the PREV of R133. -/
theorem perform_decode_of_initialised {s : State} (h : s.initialised = true) (pins : Pins) :
    perform (.decode pins) s = .next (s.drive (keysel (diff s.prev (graylut (compose pins)))) pins
      ((s.writeClr (clrAfterDecode (diff s.prev (graylut (compose pins))))).writePrev (graylut (compose pins)))) :=
  State.afterInit_of_initialised h _

/-- A DECODE for which DIFF gives 0 raises nothing and leaves CLR 0, and takes the sampled code into PREV (R133). -/
theorem perform_decode_of_diff_eq_zero {s : State} {pins : Pins} (h : s.initialised = true)
    (hzero : diff s.prev (graylut (compose pins)) = 0#4) :
    perform (.decode pins) s
      = .next (s.drive .none pins ((s.writeClr false).writePrev (graylut (compose pins)))) := by
  have hev : keysel 0#4 = .none := rfl
  have hclr : clrAfterDecode 0#4 = false := rfl
  rw [perform_decode_of_initialised h, hzero, hev, hclr]

/-! ### The statements -/

/-- Settles O10: the law `diff_toInt`, the result of R90 fitting the 4 wires of the delta. -/
theorem diffFollowsFiveLines : Obligations.DiffFollowsFiveLines := by
  unfold Obligations.DiffFollowsFiveLines
  exact diff_toInt

/-- Settles O13: both sides are R90 over integers, where exchanging the operands negates. -/
theorem diffAntisymmetric : Obligations.DiffAntisymmetric := by
  unfold Obligations.DiffAntisymmetric
  intro prev curr
  rw [diff_toInt, diff_toInt]
  exact diffR90_antisymm prev.toNat curr.toNat

/-- Settles O15: the sampled code is PREV + 8 on 4 bits, so DIFF gives the masked pattern's 0, and a DECODE of delta 0
takes the code and nothing else. -/
theorem boundaryMovementIsLost : Obligations.BoundaryMovementIsLost := by
  unfold Obligations.BoundaryMovementIsLost
  refine ⟨fun p => ⟨diff_add_eight p, diff_add_eight_left p⟩, fun s pins hinit hcode => ?_⟩
  have hcurr : graylut (compose pins) = s.prev + 8#4 := by
    apply BitVec.eq_of_toNat_eq
    rw [graylut_compose_toNat, hcode, BitVec.toNat_add]
    rfl
  have hzero : diff s.prev (graylut (compose pins)) = 0#4 := by rw [hcurr, diff_add_eight]
  have hperf := perform_decode_of_diff_eq_zero hinit hzero
  refine ⟨(s.writeClr false).writePrev (graylut (compose pins)), ?_, ?_, ?_⟩
  · rw [exec_eq_stateOf_perform, hperf, stateOf_next, State.drive_state]
  · simp [State.registers, graylut_compose_toNat]
  · simp [shownBy, hperf, Output.raised]

end Sys2Proof.Machine
end

section
/-! Sampling and event selection (spec/41_sampling.md R110, R113): the number that COMPOSE makes of the pins, and which
instruction can raise which event. First the facts about the event on the ports, then the statements. -/

namespace Sys2Proof.Machine

/-! ### The event on the ports -/

/-- A clock step raises the event it drives. -/
@[simp] theorem State.drive_raised (ev : Event) (pins : Pins) (s t : State) : (s.drive ev pins t).out.raised = ev := rfl

/-- An event on the ports is that of an instruction that completes. -/
theorem perform_of_shownBy_raised {i : Instr} {s : State} {ev : Event}
    (h : (shownBy i s).map Output.raised = some ev) : ∃ e, perform i s = .next e ∧ e.out.raised = ev := by
  unfold shownBy at h
  cases hperf : perform i s with
  | next e => exact ⟨e, rfl, by simpa [hperf] using h⟩
  | fault r => cases r
  | refused r => simp [hperf] at h

/-- Of the instructions that complete, only CLEAR raises RELEASE: INIT and HOLD raise NONE, DECODE the event that KEYSEL
selects, and a function is no clock step and raises nothing (R113). -/
theorem clear_of_perform_raised_release {i : Instr} {s : State} {e : Effect} (h : perform i s = .next e)
    (hev : e.out.raised = .release) : ∃ pins, i = .clear pins := by
  cases i with
  | clear pins => exact ⟨pins, rfl⟩
  | init tick clr pins =>
    cases h
    cases hev
  | hold clr pins =>
    obtain ⟨-, rfl⟩ := performHold_next h
    cases hev
  | decode pins =>
    obtain ⟨-, rfl⟩ := performDecode_next h
    rw [State.drive_raised] at hev
    exact absurd hev (keysel_ne_release _)
  | diff _ _ | compose _ | graylut _ =>
    cases h
    cases hev
  | keysel delta =>
    obtain ⟨-, rfl⟩ := performKeysel_next h
    cases hev

/-! ### The statements -/

/-- Settles O9: the law `compose_toNat`. -/
theorem composeFollowsFormula : Obligations.ComposeFollowsFormula := by
  unfold Obligations.ComposeFollowsFormula
  exact compose_toNat

/-- Settles O24: the sign rule by the law `keysel_toInt`, no RELEASE from KEYSEL by `keysel_ne_release`; and RELEASE on
the ports comes from an instruction that completes, which is CLEAR by the case split over the rows. -/
theorem keyselFollowsSign : Obligations.KeyselFollowsSign := by
  unfold Obligations.KeyselFollowsSign
  constructor
  · intro d hd
    exact ⟨(keysel_toInt hd).1, keysel_ne_release d⟩
  · intro i s h
    obtain ⟨e, hperf, hev⟩ := perform_of_shownBy_raised h
    exact clear_of_perform_raised_release hperf hev

end Sys2Proof.Machine
end

section
/-! The four operations of a clock step (spec/42_poller.md R130 to R138). First what each operation answers, then the
clock step as the one function of R134, then ticks one after another; with them the statements. -/

namespace Sys2Proof.Machine

/-! ### What an operation answers -/

/-- An instruction completes with these registers and ports; the machine is then initialised, and the pending inputs and
the step count are as they were. -/
def Completes (i : Instr) (s : State) (r : Registers) (p : Ports) : Prop :=
  ∃ t, exec i s = .next t ∧ t.registers = r ∧ (shownBy i s).bind Output.ports = some p
    ∧ t.initialised = true ∧ t.stimulus = s.stimulus ∧ t.cycle = s.cycle

/-- Driven ports, read as integers (R70). -/
theorem State.drive_ports (ev : Event) (pins : Pins) (s t : State) :
    (s.drive ev pins t).out.ports = some ⟨ev, codeOfPins pins, diffR90 s.prev.toNat (codeOfPins pins)⟩ := by
  simp [Output.ports, diff_toInt, graylut_compose_toNat]

/-- An operation that performs a drive to `t` completes with the registers of `t`. -/
theorem completes_of_perform_eq_drive {i : Instr} {s t : State} {ev : Event} {pins : Pins} {r : Registers}
    (hperf : perform i s = .next (s.drive ev pins t)) (hreg : t.registers = r)
    (hframe : t.initialised = true ∧ t.stimulus = s.stimulus ∧ t.cycle = s.cycle) :
    Completes i s r ⟨ev, codeOfPins pins, diffR90 s.prev.toNat (codeOfPins pins)⟩ := by
  refine ⟨t, ?_, hreg, ?_, hframe⟩
  · rw [exec_eq_stateOf_perform, hperf, stateOf_next, State.drive_state]
  · rw [shownBy, hperf, outputOf_next, Option.bind_some, State.drive_ports]

/-- R130: INIT needs no earlier INIT. -/
theorem completes_init (tick clr : Bool) (pins : Pins) (s : State) :
    Completes (.init tick clr pins) s ⟨codeOfPins pins, false⟩
      ⟨.none, codeOfPins pins, diffR90 s.prev.toNat (codeOfPins pins)⟩ :=
  completes_of_perform_eq_drive rfl (by simp [State.registers, graylut_compose_toNat]) ⟨rfl, rfl, rfl⟩

/-- R131: HOLD leaves both registers. -/
theorem completes_hold (clr : Bool) (pins : Pins) {s : State} (h : s.initialised = true) :
    Completes (.hold clr pins) s s.registers
      ⟨.none, codeOfPins pins, diffR90 s.prev.toNat (codeOfPins pins)⟩ :=
  completes_of_perform_eq_drive (State.afterInit_of_initialised h _) rfl ⟨h, rfl, rfl⟩

/-- R132: CLEAR clears CLR and keeps PREV. -/
theorem completes_clear (pins : Pins) {s : State} (h : s.initialised = true) :
    Completes (.clear pins) s ⟨s.prev.toNat, false⟩
      ⟨.release, codeOfPins pins, diffR90 s.prev.toNat (codeOfPins pins)⟩ :=
  completes_of_perform_eq_drive (State.afterInit_of_initialised h _) rfl ⟨h, rfl, rfl⟩

/-- R133: KEYSEL and the CLR rule read the delta's wires as the integer that DIFF means. -/
theorem completes_decode (pins : Pins) {s : State} (h : s.initialised = true) :
    Completes (.decode pins) s ⟨codeOfPins pins, decide (diffR90 s.prev.toNat (codeOfPins pins) ≠ 0)⟩
      ⟨keyselR113 (diffR90 s.prev.toNat (codeOfPins pins)), codeOfPins pins,
        diffR90 s.prev.toNat (codeOfPins pins)⟩ := by
  obtain ⟨hkey, hclr⟩ := keysel_toInt (diff_ne_neverProduced s.prev (graylut (compose pins)))
  rw [diff_toInt, graylut_compose_toNat] at hkey hclr
  have hperf := perform_decode_of_initialised h pins
  rw [hkey, hclr] at hperf
  exact completes_of_perform_eq_drive hperf (by simp [State.registers, graylut_compose_toNat]) ⟨h, rfl, rfl⟩

/-! ### The statements about one operation: completion by the lemma above, selection by R63 -/

/-- Settles O29: `completes_init`; rst = 1 selects INIT whatever tick and CLR are. -/
theorem initLoadsPrevAndClearsClr : Obligations.InitLoadsPrevAndClearsClr := by
  unfold Obligations.InitLoadsPrevAndClearsClr
  refine ⟨completes_init, fun s iw hp hrst => ?_⟩
  rw [step_clock hp, decodeControl_controlVector, if_pos hrst]

/-- Settles O30: `completes_hold`; rst = 0 and tick = 0 select HOLD. -/
theorem holdKeepsRegisters : Obligations.HoldKeepsRegisters := by
  unfold Obligations.HoldKeepsRegisters
  refine ⟨fun clr pins s => completes_hold clr pins, fun s iw hp hrst htick => ?_⟩
  simp [step_clock hp, decodeControl_controlVector, hrst, htick]

/-- Settles O31: `completes_clear`; on a tick CLR = 1 selects CLEAR. -/
theorem clearRaisesRelease : Obligations.ClearRaisesRelease := by
  unfold Obligations.ClearRaisesRelease
  refine ⟨fun pins s => completes_clear pins, fun s iw hp hrst htick hclr => ?_⟩
  simp [step_clock hp, decodeControl_controlVector, hrst, htick, hclr]

/-- Settles O32: `completes_decode`; on a tick CLR = 0 selects DECODE. -/
theorem decodeComparesAndUpdates : Obligations.DecodeComparesAndUpdates := by
  unfold Obligations.DecodeComparesAndUpdates
  refine ⟨fun pins s => completes_decode pins, fun s iw hp hrst htick hclr => ?_⟩
  simp [step_clock hp, decodeControl_controlVector, hrst, htick, hclr]

/-! ### The clock step as one function (R134) -/

/-- The code of the pins behind a sample field is the table's entry at the sample (R61, R111). -/
@[simp] theorem codeOfPins_pinsOfSample (smp : Sample) : codeOfPins (pinsOfSample smp) = codeR111 smp := by
  rw [← graylut_compose_toNat, compose_pinsOfSample, graylut_toNat]

/-- The operation that rst, tick and CLR select answers as R134's function does: INIT in every state, the others after
the first INIT. -/
theorem completes_selected {s : State} {rst tick : Bool} (h : rst = true ∨ s.initialised = true) (smp : Sample) :
    Completes (decodeControl (controlVector rst tick s.clr) (pinsOfSample smp)) s
      (stepR134 s.registers rst tick smp).1 (stepR134 s.registers rst tick smp).2 := by
  rw [decodeControl_controlVector, stepR134, ← codeOfPins_pinsOfSample smp]
  cases rst with
  | true => exact completes_init tick s.clr (pinsOfSample smp) s
  | false =>
    have hinit : s.initialised = true := by simpa using h
    cases tick with
    | false => exact completes_hold s.clr (pinsOfSample smp) hinit
    | true =>
      cases hclr : s.clr with
      | true => simpa [State.registers, hclr] using completes_clear (pinsOfSample smp) hinit
      | false => simpa [State.registers, hclr] using completes_decode (pinsOfSample smp) hinit

/-- Ports that GDD shows carry the event it raises. -/
theorem State.raised_of_ports {s : State} {p : Ports} (h : s.ports = some p) : s.raised = some p.ev := by
  obtain ⟨o, hshown, ho⟩ := Option.bind_eq_some_iff.mp h
  rw [State.raised, hshown]
  cases o with
  | gdd ev d c =>
    cases ho
    rfl
  | sample _ | code _ | delta _ | event _ => cases ho

/-- A clock step is R134's function of registers and input word: an INIT in every state, any other operation after the
first INIT. -/
theorem step_refines_stepR134 {s : State} {iw : InputWord} (hp : s.presented = .clock iw)
    (h : inputRst iw = true ∨ s.initialised = true) :
    ∃ t, step s = .next t ∧ t.initialised = true
      ∧ t.registers = (stepR134 s.registers (inputRst iw) (inputTick iw) (inputSample iw)).1
      ∧ s.ports = some (stepR134 s.registers (inputRst iw) (inputTick iw) (inputSample iw)).2 := by
  obtain ⟨t, hexec, hreg, hports, hinit, -, -⟩ :=
    completes_selected (s := s.advance) (tick := inputTick iw) h (inputSample iw)
  refine ⟨t, ?_, hinit, hreg, ?_⟩
  · rw [step_clock hp]
    exact hexec
  · rw [State.ports, State.shown, performStep_clock hp]
    exact hports

/-- A clock step that completes is an INIT or comes after one (R192). -/
theorem rst_or_initialised_of_step_next {s t : State} {iw : InputWord} (hp : s.presented = .clock iw)
    (h : step s = .next t) : inputRst iw = true ∨ s.initialised = true := by
  obtain ⟨o, hperf, -⟩ := performStep_of_step_next h
  rw [performStep_clock hp, decodeControl_controlVector] at hperf
  split_ifs at hperf with hrst htick hclr
  · exact .inl hrst
  · exact .inr (performClear_next hperf).1
  · exact .inr (performDecode_next hperf).1
  · exact .inr (performHold_next hperf).1

/-- What a clock step that completes leads to. -/
theorem registers_of_step_next {s t : State} {iw : InputWord} (hp : s.presented = .clock iw) (h : step s = .next t) :
    t.initialised = true
      ∧ t.registers = (stepR134 s.registers (inputRst iw) (inputTick iw) (inputSample iw)).1 := by
  obtain ⟨u, hstep, hinit, hreg, -⟩ := step_refines_stepR134 hp (rst_or_initialised_of_step_next hp h)
  cases h.symm.trans hstep
  exact ⟨hinit, hreg⟩

/-! ### The state graph -/

/-- The three rows of R135 out of Idle on a tick: CLR and the event follow the delta's sign. -/
theorem clr_and_event_of_delta (d : Int) :
    (decide (d ≠ 0), some (keyselR113 d))
      = if d = 0 then (false, some .none) else if d > 0 then (true, some .pressCw) else (true, some .pressCcw) := by
  obtain hneg | rfl | hpos := lt_trichotomy d 0
  · simp [keyselR113, hneg, hneg.ne, hneg.not_gt]
  · rfl
  · simp [keyselR113, hpos, hpos.ne']

/-- Settles O49: `step_refines_stepR134`, and the branches of R134's function in the order in which it asks for them;
out of Idle on a tick, `clr_and_event_of_delta`. -/
theorem transitionGraph : Obligations.TransitionGraph := by
  unfold Obligations.TransitionGraph
  intro s iw hp
  constructor
  · intro hrst
    obtain ⟨t, hstep, -, hreg, hports⟩ := step_refines_stepR134 hp (.inl hrst)
    rw [hrst] at hreg hports
    exact ⟨t, hstep, congrArg Registers.clr hreg, State.raised_of_ports hports⟩
  · intro hrst hinit
    obtain ⟨t, hstep, -, hreg, hports⟩ := step_refines_stepR134 hp (.inr hinit)
    have hclr : t.clr = _ := congrArg Registers.clr hreg
    refine ⟨t, hstep, ?_⟩
    rw [hclr, State.raised_of_ports hports, hrst]
    cases inputTick iw with
    | false => rfl
    | true =>
      cases hs : s.clr with
      | true => simp [stepR134, State.registers, hs]
      | false => simpa [stepR134, State.registers, hs] using clr_and_event_of_delta _

/-! ### Ticks one after another -/

/-- The fields of the lines of R72. -/
@[simp] theorem inputRst_lineInit (smp : Sample) : inputRst (lineInit smp) = true := by
  revert smp
  decide

@[simp] theorem inputSample_lineInit (smp : Sample) : inputSample (lineInit smp) = smp := by
  revert smp
  decide

@[simp] theorem inputRst_lineTick (smp : Sample) : inputRst (lineTick smp) = false := by
  revert smp
  decide

@[simp] theorem inputTick_lineTick (smp : Sample) : inputTick (lineTick smp) = true := by
  revert smp
  decide

@[simp] theorem inputSample_lineTick (smp : Sample) : inputSample (lineTick smp) = smp := by
  revert smp
  decide

/-- Presenting an input word leaves the registers. -/
@[simp] theorem State.feed_registers (iw : InputWord) (s : State) : (s.feed iw).registers = s.registers := rfl

/-- A tick after the first INIT is R134's function with rst = 0 and tick = 1. -/
theorem step_tick {s : State} (hinit : s.initialised = true) (smp : Sample) :
    ∃ t, step (s.feed (lineTick smp)) = .next t ∧ t.initialised = true
      ∧ t.registers = (stepR134 s.registers false true smp).1
      ∧ (s.feed (lineTick smp)).raised = some (stepR134 s.registers false true smp).2.ev := by
  obtain ⟨t, hstep, hinit', hreg, hports⟩ :=
    step_refines_stepR134 (State.presented_feed (lineTick smp) s) (.inr hinit)
  exact ⟨t, hstep, hinit', by simpa using hreg, by simpa using State.raised_of_ports hports⟩

/-- The tick in Idle compares and samples (R133). -/
theorem tick_idle {s : State} {p : Nat} (hinit : s.initialised = true) (hreg : s.registers = ⟨p, false⟩)
    (smp : Sample) :
    ∃ t, step (s.feed (lineTick smp)) = .next t ∧ t.initialised = true
      ∧ t.registers = ⟨codeR111 smp, decide (diffR90 p (codeR111 smp) ≠ 0)⟩
      ∧ (s.feed (lineTick smp)).raised = some (keyselR113 (diffR90 p (codeR111 smp))) := by
  have h := step_tick hinit smp
  rwa [hreg] at h

/-- The tick in KeyDown releases and does not sample (R132). -/
theorem tick_keyDown {s : State} {p : Nat} (hinit : s.initialised = true) (hreg : s.registers = ⟨p, true⟩)
    (smp : Sample) :
    ∃ t, step (s.feed (lineTick smp)) = .next t ∧ t.initialised = true ∧ t.registers = ⟨p, false⟩
      ∧ (s.feed (lineTick smp)).raised = some .release := by
  have h := step_tick hinit smp
  rwa [hreg] at h

/-- The tick in Idle at the sample that PREV already has changes and raises nothing (R137). -/
theorem tick_idle_same {s : State} {smp : Sample} (hinit : s.initialised = true)
    (hreg : s.registers = ⟨codeR111 smp, false⟩) :
    ∃ t, step (s.feed (lineTick smp)) = .next t ∧ t.registers = s.registers
      ∧ (s.feed (lineTick smp)).raised = some .none := by
  have hzero : diffR90 (codeR111 smp) (codeR111 smp) = 0 := by simp [diffR90]
  obtain ⟨t, hstep, -, ht, hev⟩ := tick_idle hinit hreg smp
  rw [hzero] at ht hev
  exact ⟨t, hstep, ht.trans hreg.symm, hev⟩

/-- An INIT or a decoding tick leaves PREV at the code of its sample (R130, R133). -/
theorem registers_of_sampling_step {s t : State} {smp : Sample}
    (h : step (s.feed (lineInit smp)) = .next t ∨ (s.clr = false ∧ step (s.feed (lineTick smp)) = .next t)) :
    t.initialised = true ∧ t.registers = ⟨codeR111 smp, t.clr⟩ := by
  have hsampled : t.initialised = true ∧ t.registers.prev = codeR111 smp := by
    obtain h | ⟨hclr, h⟩ := h
    · obtain ⟨hinit, hreg⟩ := registers_of_step_next (State.presented_feed _ _) h
      exact ⟨hinit, by rw [hreg]; simp [stepR134]⟩
    · obtain ⟨hinit, hreg⟩ := registers_of_step_next (State.presented_feed _ _) h
      exact ⟨hinit, by rw [hreg]; simp [stepR134, State.registers, hclr]⟩
  obtain ⟨hinit, hprev⟩ := hsampled
  exact ⟨hinit, congrArg (Registers.mk · t.clr) hprev⟩

/-- Settles O52: PREV is the code of the sample after either way in; with CLR 0 the tick is `tick_idle_same`, with CLR 1
it is a release that keeps PREV, and the tick after it is `tick_idle_same`. -/
theorem secondTickIsIdempotent : Obligations.SecondTickIsIdempotent := by
  unfold Obligations.SecondTickIsIdempotent
  intro s t smp h
  obtain ⟨hinit, hreg⟩ := registers_of_sampling_step h
  constructor <;> intro hclr <;> rw [hclr] at hreg
  · exact tick_idle_same hinit hreg
  · obtain ⟨u, hstep, huinit, hu, hev⟩ := tick_keyDown hinit hreg smp
    obtain ⟨v, hstep', hv, hev'⟩ := tick_idle_same huinit hu
    exact ⟨u, v, hstep, hev, hstep', hv, hev'⟩

/-- A code one above or one below on the ring of 16 is at the delta +1 or −1, the wraps included (R90, R138). -/
theorem diffR90_of_unit_step {p c : Nat} {up : Bool} (hp : p < 16) (hc : c = (p + if up then 1 else 15) % 16) :
    diffR90 p c = if up then 1 else -1 := by
  subst hc
  cases up <;> simp only [diffR90] <;> split_ifs <;> omega

/-- Settles O53: the press by the delta ±1 of `diffR90_of_unit_step`, then the release and the idle tick of R137. -/
theorem oneDetentOneStroke : Obligations.OneDetentOneStroke := by
  unfold Obligations.OneDetentOneStroke
  intro s smp during up hinit hclr hcode
  have hdelta : diffR90 s.prev.toNat (codeR111 smp) = if up then 1 else -1 :=
    diffR90_of_unit_step s.prev.isLt hcode
  have hreg : s.registers = ⟨s.prev.toNat, false⟩ := by rw [State.registers, hclr]
  obtain ⟨a, hstep, hainit, ha, hev⟩ := tick_idle hinit hreg smp
  have hpressed : decide (diffR90 s.prev.toNat (codeR111 smp) ≠ 0) = true := by cases up <;> simp [hdelta]
  have hkey : keyselR113 (diffR90 s.prev.toNat (codeR111 smp)) = if up then .pressCw else .pressCcw := by
    cases up <;> simp [hdelta, keyselR113]
  rw [hpressed] at ha
  rw [hkey] at hev
  obtain ⟨b, hstep', hbinit, hb, hev'⟩ := tick_keyDown hainit ha during
  obtain ⟨c, hstep'', hc, hev''⟩ := tick_idle_same hbinit hb
  exact ⟨a, b, c, hstep, hstep', hstep'', hev, hev', hev'', ha, hb, hc.trans hb⟩

end Sys2Proof.Machine
end

section
/-! Reset, the un-initialised state and the hazards (spec/70_reset_and_hazards.md R190, R191, R192, R194). First the
refusals before any INIT, then INIT repeated and the runs after it, then a wrong sample; with them the statements. -/

namespace Sys2Proof.Machine

/-! ### Before the first INIT -/

/-- Settles O33: HOLD, CLEAR and DECODE pass through `State.afterInit`, which refuses here; INIT does not ask. -/
theorem refusedBeforeFirstInit : Obligations.RefusedBeforeFirstInit := by
  unfold Obligations.RefusedBeforeFirstInit
  intro s clr pins hinit
  have hrefused (e : Effect) : stateOf (s.afterInit e) = .refused .beforeFirstInit := by
    rw [State.afterInit_of_not_initialised hinit, stateOf_refused]
  exact ⟨hrefused _, hrefused _, hrefused _, _, _, _, rfl, rfl, rfl, graylut_compose_toNat pins⟩

/-! ### INIT repeated, and what it drops -/

/-- INIT is taken in every state: it loads PREV, clears CLR and raises nothing (R130). -/
theorem step_init {s : State} {iw : InputWord} (hp : s.presented = .clock iw) (hrst : inputRst iw = true) :
    ∃ t, step s = .next t ∧ t.initialised = true ∧ t.registers = ⟨codeR111 (inputSample iw), false⟩
      ∧ s.raised = some .none := by
  obtain ⟨t, hstep, hinit, hreg, hports⟩ := step_refines_stepR134 hp (.inl hrst)
  rw [hrst] at hreg hports
  exact ⟨t, hstep, hinit, hreg, State.raised_of_ports hports⟩

/-- A step that completes leads a run on to its next state. -/
theorem runWords_cons_of_step {iw : InputWord} {rest : List InputWord} {s t : State}
    (h : step (s.feed iw) = .next t) : runWords (iw :: rest) s = runWords rest t := by
  simp only [runWords, h]

/-- Settles O41: by induction on the words before the last, each of which is an INIT that completes. -/
theorem lastInitCounts : Obligations.LastInitCounts := by
  unfold Obligations.LastInitCounts
  intro words last s hwords hlast
  induction words generalizing s with
  | nil =>
    obtain ⟨t, hstep, hinit, hreg, -⟩ := step_init (State.presented_feed last s) hlast
    exact ⟨t, runWords_cons_of_step hstep, hinit, hreg⟩
  | cons iw rest ih =>
    obtain ⟨hiw, hrest⟩ := List.forall_mem_cons.mp hwords
    obtain ⟨u, hstep, -⟩ := step_init (State.presented_feed iw s) hiw
    rw [List.cons_append, runWords_cons_of_step hstep]
    exact ih u hrest

/-- The tick events of a run begin with that of its first step, if it is a tick. -/
theorem tickEvents_cons_of_step {iw : InputWord} {rest : List InputWord} {s t : State}
    (h : step (s.feed iw) = .next t) :
    tickEvents (iw :: rest) s
      = (if inputTick iw then (s.feed iw).raised.toList else []) ++ tickEvents rest t := by
  simp only [tickEvents, h]

/-- Over integers too, KEYSEL never gives RELEASE (R113). -/
theorem keyselR113_ne_release (d : Int) : keyselR113 d ≠ .release := by
  unfold keyselR113
  split_ifs <;> decide

/-- In a run that begins in Idle and takes no INIT, the first tick is a DECODE, whatever HOLD steps come before it; so
its event is not RELEASE (R131, R133). -/
theorem head?_tickEvents_ne_release_of_idle {words : List InputWord} {s : State} (hinit : s.initialised = true)
    (hclr : s.clr = false) (hwords : ∀ w ∈ words, inputRst w = false) :
    (tickEvents words s).head? ≠ some .release := by
  induction words generalizing s with
  | nil => simp [tickEvents]
  | cons iw rest ih =>
    obtain ⟨hrst, hrest⟩ := List.forall_mem_cons.mp hwords
    obtain ⟨t, hstep, htinit, hreg, hports⟩ := step_refines_stepR134 (State.presented_feed iw s) (.inr hinit)
    rw [tickEvents_cons_of_step hstep]
    cases htick : inputTick iw with
    | false =>
      have hheld : t.registers = s.registers := by simpa [stepR134, hrst, htick] using hreg
      have htclr : t.clr = false := (congrArg Registers.clr hheld).trans hclr
      simpa using ih htinit htclr hrest
    | true =>
      have hev := State.raised_of_ports hports
      simp [hev, stepR134, hrst, htick, State.registers, hclr, keyselR113_ne_release]

/-- Settles O42: INIT leads to Idle with no event, and from Idle no run without INIT opens its ticks with RELEASE. -/
theorem initDropsOwedRelease : Obligations.InitDropsOwedRelease := by
  unfold Obligations.InitDropsOwedRelease
  intro s iw _ hp hrst
  obtain ⟨t, hstep, hinit, hreg, hev⟩ := step_init hp hrst
  have hclr : t.clr = false := congrArg Registers.clr hreg
  exact ⟨t, hstep, hclr, hev, fun _ => head?_tickEvents_ne_release_of_idle hinit hclr⟩

/-! ### A wrong sample and the true one after it -/

/-- R90 gives 0 only for codes that are the same or 8 apart on the ring of 16 (R96). -/
theorem emod_of_diffR90_eq_zero {prev curr : Int} (h : diffR90 prev curr = 0) :
    (curr - prev) % 16 = 0 ∨ (curr - prev) % 16 = 8 := by
  unfold diffR90 at h
  dsimp only at h
  split_ifs at h <;> omega

/-- A delta that is not 0 presses a key (R113). -/
theorem keyselR113_isPress {d : Int} (h : d ≠ 0) : (keyselR113 d).isPress = true := by
  unfold keyselR113
  split_ifs
  · rfl
  · rfl
  · omega

/-- The negated delta presses the key of the other direction (R95, R113). -/
theorem keyselR113_neg (d : Int) : keyselR113 (-d) = oppositePress (keyselR113 d) := by
  obtain hneg | rfl | hpos := lt_trichotomy d 0
  · simp [keyselR113, hneg, hneg.not_gt, oppositePress]
  · rfl
  · simp [keyselR113, hpos, hpos.not_gt, oppositePress]

/-- Settles O57: the wrong sample is at a delta that is not 0, so it presses a key; the clear tick keeps the wrong code in
PREV; and the way back from it is the negated delta, by DIFF's antisymmetry. -/
theorem glitchPressesBothKeys : Obligations.GlitchPressesBothKeys := by
  unfold Obligations.GlitchPressesBothKeys
  intro s actual wrong hinit hclr hprev hne0 hne8
  have hdelta : diffR90 s.prev.toNat (codeR111 wrong) ≠ 0 := fun hzero =>
    (emod_of_diffR90_eq_zero hzero).elim hne0 hne8
  have hreg : s.registers = ⟨s.prev.toNat, false⟩ := by rw [State.registers, hclr]
  obtain ⟨a, hstep, hainit, ha, hev⟩ := tick_idle hinit hreg wrong
  rw [decide_eq_true hdelta] at ha
  obtain ⟨b, hstep', hbinit, hb, hev'⟩ := tick_keyDown hainit ha actual
  obtain ⟨c, hstep'', -, hc, hev''⟩ := tick_idle hbinit hb actual
  rw [← hprev, diffR90_antisymm, keyselR113_neg] at hev''
  have hback : c.prev = s.prev :=
    BitVec.eq_of_toNat_eq ((congrArg Registers.prev hc).trans hprev.symm)
  exact ⟨a, b, c, _, hstep, hev, keyselR113_isPress hdelta, hstep', hev', hstep'', hev'', hback⟩

end Sys2Proof.Machine
end

section
/-! The decoder and the encoder as inverses, and what a step makes of the bytes it forms (spec/30_encoding.md R61, R63,
R64, R71, R72). First what a presented input selects, then the decoder taken apart, then the statements. -/

namespace Sys2Proof.Machine

/-! ### What is presented and what it selects -/

/-- The instruction that a presented input selects under a value of CLR (R63, R71). -/
def selected (clr : Bool) : Stimulus → Instr
  | .clock iw => decodeControl (controlVector (inputRst iw) (inputTick iw) clr) (pinsOfSample (inputSample iw))
  | .diff w => .diff (w.extractLsb' 4 4) (w.extractLsb' 0 4)
  | .compose w => .compose (pinsOfSample w)
  | .graylut w => .graylut w
  | .keysel w => .keysel w

/-- Everything presented, KEYSEL's never produced pattern apart, decodes to what it selects (R64). -/
theorem decode_stimulusBytes (clr : Bool) {x : Stimulus} (h : x ≠ .keysel deltaNeverProduced) :
    decode (stimulusBytes clr x) = .ok (selected clr x) := by
  cases x with
  | clock iw => exact decode_clock _ _ _ _
  | diff w => exact decode_diff w
  | compose w => exact decode_compose w
  | graylut w => exact decode_graylut w
  | keysel w => exact decode_keysel fun hw => h (congrArg Stimulus.keysel hw)

/-- KEYSEL's never produced pattern is the one word that the decoder rejects (U3). -/
theorem decode_stimulusBytes_keysel_neverProduced (clr : Bool) :
    decode (stimulusBytes clr (.keysel deltaNeverProduced)) = .error .keyselMinusEight := rfl

/-- A step runs what the presented input selects. -/
theorem step_of_presented {s : State} (h : s.presented ≠ .keysel deltaNeverProduced) :
    step s = exec (selected s.clr s.presented) s.advance := by
  rw [step, State.fetchBytes, decode_stimulusBytes s.clr h]

/-- A step at which KEYSEL's never produced pattern is presented is refused by that name (U3). -/
theorem step_of_presented_keysel_neverProduced {s : State} (h : s.presented = .keysel deltaNeverProduced) :
    step s = .refused (.rejected .keyselMinusEight) := by
  rw [step, State.fetchBytes, h, decode_stimulusBytes_keysel_neverProduced]

/-- Every control vector selects a well-formed operation (R64). -/
theorem wellFormed_decodeControl (cv : ControlVector) (pins : Pins) : (decodeControl cv pins).wellFormed = true := by
  unfold decodeControl
  split_ifs <;> rfl

/-- What a presented input selects is well formed, KEYSEL's never produced pattern apart. -/
theorem wellFormed_selected (clr : Bool) {x : Stimulus} (h : x ≠ .keysel deltaNeverProduced) :
    (selected clr x).wellFormed = true := by
  cases x with
  | clock iw => exact wellFormed_decodeControl _ _
  | diff _ | compose _ | graylut _ => rfl
  | keysel w => exact bne_iff_ne.mpr fun hw => h (congrArg Stimulus.keysel hw)

/-- KEYSEL's never produced pattern is the one ill-formed operand (U3). -/
theorem ne_neverProduced_of_wellFormed_keysel {d : Delta} (h : (Instr.keysel d).wellFormed = true) :
    d ≠ deltaNeverProduced :=
  bne_iff_ne.mp h

/-- The inputs and the CLR with which an instruction is placed select it again. -/
theorem selected_stimulusOf (s : State) (i : Instr) : selected (clrOf s i) (stimulusOf i) = i := by
  cases i with
  | init tick clr pins | hold clr pins | clear pins | decode pins =>
    simp [stimulusOf, clrOf, selected, decodeControl_controlVector]
  | diff prev curr =>
    exact congrArg₂ Instr.diff BitVec.extractLsb'_append_eq_left BitVec.extractLsb'_append_eq_right
  | compose pins => exact congrArg Instr.compose (pinsOfSample_sampleOfPins pins)
  | graylut a | keysel a => rfl

/-- A well-formed instruction is not placed as KEYSEL's never produced pattern. -/
theorem stimulusOf_ne_keysel_neverProduced {i : Instr} (h : i.wellFormed = true) :
    stimulusOf i ≠ .keysel deltaNeverProduced := by
  cases i with
  | keysel d => simpa [stimulusOf] using ne_neverProduced_of_wellFormed_keysel h
  | init _ _ _ | hold _ _ | clear _ | decode _ | diff _ _ | compose _ | graylut _ => simp [stimulusOf]

/-! ### The encoder's bytes -/

/-- The bytes of a clock step are read back as rst, tick, CLR and the pins select (R61, R63). -/
theorem decode_clockBytes (rst tick clr : Bool) (pins : Pins) :
    decode (clockBytes rst tick clr pins)
      = .ok (if rst then .init tick clr pins else if tick then (if clr then .clear pins else .decode pins)
        else .hold clr pins) := by
  rw [clockBytes, decode_clock, pinsOfSample_sampleOfPins, decodeControl_controlVector]

/-- The operation that a control vector selects is written with that control vector (R63). -/
theorem encode_decodeControl (cv : ControlVector) (pins : Pins) :
    encode (decodeControl cv pins) = [cv.setWidth 8, nibbleByte (sampleOfPins pins), 0#8] := by
  have hbits : cv = controlVector cv[2] cv[1] cv[0] := by
    revert cv
    decide
  rw [decodeControl]
  conv_rhs => rw [hbits]
  cases cv[2] <;> cases cv[1] <;> cases cv[0] <;> rfl

/-! ### The decoder taken apart -/

/-- A byte with no bit at or above position `n` is its low `n` bits. -/
theorem setWidth_setWidth_of_lt {n : Nat} {b : Byte} (h : b.toNat < 2 ^ n) : (b.setWidth n).setWidth 8 = b := by
  apply BitVec.eq_of_toNat_eq
  rw [BitVec.toNat_setWidth, BitVec.toNat_setWidth, Nat.mod_eq_of_lt h, Nat.mod_eq_of_lt b.isLt]

/-- What is accepted as a clock step is written as it was. -/
theorem encode_of_decodeClock {word sample : Byte} {i : Instr} (h : decodeClock word sample = .ok i) :
    encode i = [word, sample, 0#8] ∧ i.wellFormed = true := by
  unfold decodeClock at h
  split_ifs at h with hword hsample
  cases h
  have hw : (word.setWidth 3).setWidth 8 = word := setWidth_setWidth_of_lt (by omega)
  have hs : nibbleByte (sample.setWidth 4) = sample := setWidth_setWidth_of_lt (by omega)
  exact ⟨by rw [encode_decodeControl, sampleOfPins_pinsOfSample, hw, hs], wellFormed_decodeControl _ _⟩

/-- An accepted 4-bit operand word has no bit above the four. -/
theorem decodeOperand4_eq_ok {word : Byte} {k : BitVec 4 → Except Reject Instr} {i : Instr}
    (h : decodeOperand4 word k = .ok i) : nibbleByte (word.setWidth 4) = word ∧ k (word.setWidth 4) = .ok i := by
  unfold decodeOperand4 at h
  split_ifs at h with hword
  exact ⟨setWidth_setWidth_of_lt (by omega), h⟩

/-- KEYSEL's operand is accepted where it is well formed (U3). -/
theorem decodeKeysel_eq_ok {d : Delta} {i : Instr} (h : decodeKeysel d = .ok i) :
    i = .keysel d ∧ i.wellFormed = true := by
  unfold decodeKeysel at h
  split_ifs at h with hd
  cases h
  exact ⟨rfl, bne_iff_ne.mpr hd⟩

/-- What is accepted as a function evaluation is written as it was. -/
theorem encode_of_decodeFunction {word block : Byte} {i : Instr} (h : decodeFunction word block = .ok i) :
    encode i = [word, 0#8, block] ∧ i.wellFormed = true := by
  unfold decodeFunction at h
  split_ifs at h with h1 h2 h3 h4
  · -- DIFF
    cases h
    have hword : word.extractLsb' 4 4 ++ word.extractLsb' 0 4 = word := BitVec.extractLsb'_append_extractLsb'
    exact ⟨by rw [encode, hword, h1], rfl⟩
  · -- COMPOSE
    obtain ⟨hword, hk⟩ := decodeOperand4_eq_ok h
    cases hk
    exact ⟨by rw [encode, sampleOfPins_pinsOfSample, hword, h2], rfl⟩
  · -- GRAYLUT
    obtain ⟨hword, hk⟩ := decodeOperand4_eq_ok h
    cases hk
    exact ⟨by rw [encode, hword, h3], rfl⟩
  · -- KEYSEL
    obtain ⟨hword, hk⟩ := decodeOperand4_eq_ok h
    obtain ⟨rfl, hwf⟩ := decodeKeysel_eq_ok hk
    exact ⟨by rw [encode, hword, h4], hwf⟩

/-- Accepted bytes are three: a clock step under block 0, else a function with sample byte 0 (log 5). -/
theorem decode_eq_ok {bytes : List Byte} {i : Instr} (h : decode bytes = .ok i) :
    (∃ word sample, bytes = [word, sample, 0#8] ∧ decodeClock word sample = .ok i)
      ∨ ∃ word block, bytes = [word, 0#8, block] ∧ decodeFunction word block = .ok i := by
  unfold decode at h
  split at h
  next word sample block =>
    split_ifs at h with hblock hsample
    · exact .inl ⟨word, sample, by rw [hblock], h⟩
    · exact .inr ⟨word, block, by rw [hsample], h⟩
  next => cases h

/-- Bytes that decode are written as they were, and what they decode to is well formed. -/
theorem encode_of_decode {bytes : List Byte} {i : Instr} (h : decode bytes = .ok i) :
    encode i = bytes ∧ i.wellFormed = true := by
  obtain ⟨word, sample, rfl, hclock⟩ | ⟨word, block, rfl, hfun⟩ := decode_eq_ok h
  · exact encode_of_decodeClock hclock
  · exact encode_of_decodeFunction hfun

/-! ### The statements -/

/-- Settles O1: the four clock rows by `decode_clockBytes`, the function rows by the law of their block; KEYSEL's operand
is accepted because it is well formed. -/
theorem decodeOfEncode : Obligations.DecodeOfEncode := by
  unfold Obligations.DecodeOfEncode
  intro i hwf
  cases i with
  | init tick clr pins | hold clr pins | clear pins | decode pins => exact decode_clockBytes _ _ _ pins
  | diff prev curr =>
    rw [encode, decode_diff, BitVec.extractLsb'_append_eq_left, BitVec.extractLsb'_append_eq_right]
  | compose pins => rw [encode, decode_compose, pinsOfSample_sampleOfPins]
  | graylut a => exact decode_graylut a
  | keysel d => exact decode_keysel (ne_neverProduced_of_wellFormed_keysel hwf)

/-- Settles O2: `encode_of_decode`, the decoder taken apart branch by branch. -/
theorem encodeOfDecode : Obligations.EncodeOfDecode := by
  unfold Obligations.EncodeOfDecode
  exact fun bytes i => encode_of_decode

/-- Settles O6: what is presented decodes to what it selects, except the one word that the decoder rejects. -/
theorem presentedWordsDecode : Obligations.PresentedWordsDecode := by
  unfold Obligations.PresentedWordsDecode
  exact ⟨fun s h => ⟨_, decode_stimulusBytes s.clr h, wellFormed_selected s.clr h⟩,
    fun s => step_of_presented_keysel_neverProduced⟩

/-- Settles O7: an instruction that was decoded is well formed, so the step on its inputs runs it; the step's own advance
uses those inputs up. -/
theorem placedWordRunsNext : Obligations.PlacedWordRunsNext := by
  unfold Obligations.PlacedWordRunsNext
  intro s nbits w i hi
  obtain ⟨bytes, hdecode⟩ : ∃ bytes, decode bytes = .ok i := by
    unfold decodeTableWord at hi
    split_ifs at hi
    refine ⟨tableBytes nbits w, ?_⟩
    cases hd : decode (tableBytes nbits w) with
    | error reason => simp [hd, Except.toOption] at hi
    | ok j => simpa [hd, Except.toOption] using hi
  have hwf : i.wellFormed = true := (encode_of_decode hdecode).2
  calc step (s.withFetchWord nbits w) = step (s.place i) := by rw [State.withFetchWord, hi]
    _ = exec (selected (clrOf s i) (stimulusOf i)) (s.place i).advance :=
      step_of_presented (stimulusOf_ne_keysel_neverProduced hwf)
    _ = exec i (s.place i).advance := by rw [selected_stimulusOf]

/-- Settles O3: each word is what the encoder writes for its instruction, so O1's round trip reads it back. -/
theorem writtenWordsDecode : Obligations.WrittenWordsDecode := by
  unfold Obligations.WrittenWordsDecode
  exact ⟨decodeOfEncode (.init false true ⟨true, true, true, false⟩) rfl,
    decodeOfEncode (.hold true ⟨false, true, false, false⟩) rfl,
    decodeOfEncode (.clear ⟨false, false, false, true⟩) rfl,
    decodeOfEncode (.decode ⟨false, false, false, true⟩) rfl,
    decodeOfEncode (.diff 14#4 1#4) rfl,
    decodeOfEncode (.compose ⟨false, true, true, true⟩) rfl,
    decodeOfEncode (.graylut 9#4) rfl,
    decodeOfEncode (.keysel 15#4) rfl⟩

/-- Settles O5: the decoded branch of `step`, whose state is `State.advance`; and the empty branch of
`State.presented`. -/
theorem stepRunsDecodedInstruction : Obligations.StepRunsDecodedInstruction := by
  unfold Obligations.StepRunsDecodedInstruction
  refine ⟨fun s i h => ?_, fun s h => ?_⟩
  · rw [step, h]
    rfl
  · rw [State.fetchBytes, State.presented, h]

@[simp] theorem inputTick_lineInit (smp : Sample) : inputTick (lineInit smp) = false := by
  revert smp
  decide

/-- The fields of the line `IDLE s` (R72). -/
theorem inputFields_lineIdle (smp : Sample) :
    inputRst (lineIdle smp) = false ∧ inputTick (lineIdle smp) = false ∧ inputSample (lineIdle smp) = smp := by
  revert smp
  decide

/-- Settles O28: the fields of each line, and the expansions as R72 defines them. -/
theorem stimulusLines : Obligations.StimulusLines := by
  unfold Obligations.StimulusLines
  refine ⟨fun smp => ⟨?_, ?_, inputFields_lineIdle smp, rfl⟩, rfl, fun _ => rfl⟩
  · exact ⟨inputRst_lineInit smp, inputTick_lineInit smp, inputSample_lineInit smp⟩
  · exact ⟨inputRst_lineTick smp, inputTick_lineTick smp, inputSample_lineTick smp⟩

end Sys2Proof.Machine
end

section
/-! What every step of the whole machine keeps, answers and shows (spec/00_scope.md R11, spec/10_state.md R20 to R29,
spec/30_encoding.md R67 to R71, spec/42_poller.md R134). First what a function evaluation does and what every
instruction's output says of its next state, then what a step does, then the statements. -/

namespace Sys2Proof.Machine

/-! ### The functions, evaluated -/

/-- KEYSEL shows the event of its delta, and nothing for the pattern that is refused (R113, U3). -/
theorem shownBy_keysel (d : Delta) (s : State) :
    shownBy (.keysel d) s = if d = deltaNeverProduced then none else some (.event (keysel d)) := by
  rw [shownBy, perform, performKeysel]
  split_ifs <;> rfl

/-- KEYSEL of a delta that DIFF can give completes and leaves the state (R113). -/
theorem exec_keysel {d : Delta} (h : d ≠ deltaNeverProduced) (s : State) : exec (.keysel d) s = .next s := by
  rw [exec, execKeysel, performKeysel, if_neg h, stateOf_next]

/-- A function that completes leaves the whole state and raises no event on the ports (R101). -/
theorem perform_function_next {i : Instr} {s : State} {e : Effect} (hf : isFunction i = true)
    (h : perform i s = .next e) : e.state = s ∧ e.out.raised = .none := by
  cases i with
  | init _ _ _ | hold _ _ | clear _ | decode _ => cases hf
  | diff _ _ | compose _ | graylut _ =>
    cases h
    exact ⟨rfl, rfl⟩
  | keysel d =>
    obtain ⟨-, rfl⟩ := performKeysel_next h
    exact ⟨rfl, rfl⟩

/-- The next-state half of `perform_function_next`. -/
theorem exec_function_next {i : Instr} {s t : State} (hf : isFunction i = true) (h : exec i s = .next t) : t = s := by
  rw [exec_eq_stateOf_perform, stateOf_eq_next] at h
  obtain ⟨o, hperf⟩ := h
  exact (perform_function_next hf hperf).1

/-- What a function shows does not depend on the state (R101). -/
theorem shownBy_function {i : Instr} (hf : isFunction i = true) (s u : State) : shownBy i s = shownBy i u := by
  cases i with
  | init _ _ _ | hold _ _ | clear _ | decode _ => cases hf
  | diff _ _ | compose _ | graylut _ => rfl
  | keysel d => rw [shownBy_keysel, shownBy_keysel]

/-! ### HOLD and CLEAR that complete -/

/-- A HOLD that completes leaves the state and raises NONE (R131). -/
theorem exec_hold_next {clr : Bool} {pins : Pins} {s t : State} (h : exec (.hold clr pins) s = .next t) :
    t = s ∧ (shownBy (.hold clr pins) s).map Output.raised = some .none := by
  rw [exec_eq_stateOf_perform, stateOf_eq_next] at h
  obtain ⟨o, hperf⟩ := h
  obtain ⟨-, he⟩ := performHold_next hperf
  cases he
  exact ⟨rfl, by rw [shownBy, hperf]; rfl⟩

/-- A CLEAR that completes writes CLR alone and raises RELEASE (R132). -/
theorem exec_clear_next {pins : Pins} {s t : State} (h : exec (.clear pins) s = .next t) :
    t = s.writeClr false ∧ (shownBy (.clear pins) s).map Output.raised = some .release := by
  rw [exec_eq_stateOf_perform, stateOf_eq_next] at h
  obtain ⟨o, hperf⟩ := h
  obtain ⟨-, he⟩ := performClear_next hperf
  cases he
  exact ⟨rfl, by rw [shownBy, hperf]; rfl⟩

/-- A DECODE completes only after the first INIT (R192). -/
theorem initialised_of_exec_decode_next {pins : Pins} {s t : State} (h : exec (.decode pins) s = .next t) :
    s.initialised = true := by
  rw [exec_eq_stateOf_perform, stateOf_eq_next] at h
  obtain ⟨o, hperf⟩ := h
  exact (performDecode_next hperf).1

/-- The registers that an instruction completes with are those of its next state. -/
theorem Completes.registers_of_exec_next {i : Instr} {s t : State} {r : Registers} {p : Ports}
    (hc : Completes i s r p) (h : exec i s = .next t) : t.registers = r := by
  obtain ⟨u, hexec, hreg, -⟩ := hc
  cases h.symm.trans hexec
  exact hreg

/-! ### What an output says of the state it leads to -/

/-- NONE on the ports claims nothing of the registers. -/
theorem consistent_drive_none (pins : Pins) (s t : State) : (s.drive .none pins t).out.consistent t := by
  simp [Output.consistent, diff_ne_neverProduced, Event.isPress]

/-- RELEASE on the ports claims CLR 0 (R132). -/
theorem consistent_drive_release (pins : Pins) {s t : State} (h : t.clr = false) :
    (s.drive .release pins t).out.consistent t := by
  simp [Output.consistent, diff_ne_neverProduced, Event.isPress, h]

/-- KEYSEL's event on the ports agrees with the CLR and the PREV that DECODE writes (R113, R133). -/
theorem consistent_drive_keysel {pins : Pins} {s t : State}
    (hclr : t.clr = clrAfterDecode (diff s.prev (graylut (compose pins)))) (hprev : t.prev = graylut (compose pins)) :
    (s.drive (keysel (diff s.prev (graylut (compose pins)))) pins t).out.consistent t := by
  rw [State.drive_out]
  refine ⟨diff_ne_neverProduced _ _, fun hpress => ?_, keysel_eq_pressCw, keysel_eq_pressCcw,
    fun hrelease => absurd hrelease (keysel_ne_release _)⟩
  rw [keysel_isPress] at hpress
  exact ⟨hclr.trans hpress, hprev⟩

/-- What an instruction shows agrees with the state it leads to. -/
theorem consistent_of_perform_next {i : Instr} {s : State} {e : Effect} (h : perform i s = .next e) :
    e.out.consistent e.state := by
  cases i with
  | init tick clr pins =>
    cases h
    exact consistent_drive_none pins s _
  | hold clr pins =>
    obtain ⟨-, rfl⟩ := performHold_next h
    exact consistent_drive_none pins s s
  | clear pins =>
    obtain ⟨-, rfl⟩ := performClear_next h
    exact consistent_drive_release pins rfl
  | decode pins =>
    obtain ⟨-, rfl⟩ := performDecode_next h
    exact consistent_drive_keysel rfl rfl
  | diff prev curr =>
    cases h
    exact diff_ne_neverProduced prev curr
  | compose _ | graylut _ =>
    cases h
    trivial
  | keysel d =>
    obtain ⟨-, rfl⟩ := performKeysel_next h
    exact keysel_ne_release d

/-- No instruction undoes the first INIT (R192). -/
theorem initialised_of_perform_next {i : Instr} {s : State} {e : Effect} (hs : s.initialised = true)
    (h : perform i s = .next e) : e.state.initialised = true := by
  cases i with
  | init tick clr pins =>
    cases h
    rfl
  | hold clr pins =>
    obtain ⟨-, rfl⟩ := performHold_next h
    exact hs
  | clear pins =>
    obtain ⟨-, rfl⟩ := performClear_next h
    exact hs
  | decode pins =>
    obtain ⟨-, rfl⟩ := performDecode_next h
    exact hs
  | diff _ _ | compose _ | graylut _ | keysel _ =>
    rw [(perform_function_next rfl h).1]
    exact hs

/-! ### What a step does with what is presented -/

/-- The step with its outputs performs what the presented input selects. -/
theorem performStep_of_presented {s : State} (h : s.presented ≠ .keysel deltaNeverProduced) :
    s.performStep = perform (selected s.clr s.presented) s.advance := by
  rw [State.performStep, State.fetchBytes, decode_stimulusBytes s.clr h]

/-- The ports of a step are those of what the presented input selects. -/
theorem shown_of_presented {s : State} (h : s.presented ≠ .keysel deltaNeverProduced) :
    s.shown = shownBy (selected s.clr s.presented) s.advance := by
  rw [State.shown, performStep_of_presented h, shownBy]

/-- A step at which KEYSEL's never produced pattern is presented shows nothing (U3). -/
theorem shown_of_presented_keysel_neverProduced {s : State} (h : s.presented = .keysel deltaNeverProduced) :
    s.shown = none := by
  rw [State.shown, State.performStep, State.fetchBytes, h, decode_stimulusBytes_keysel_neverProduced, outputOf_refused]

/-- A step that completes was not given KEYSEL's never produced pattern. -/
theorem presented_ne_of_step_next {s t : State} (h : step s = .next t) :
    s.presented ≠ .keysel deltaNeverProduced := by
  intro hp
  rw [step_of_presented_keysel_neverProduced hp] at h
  cases h

/-- A step that completes performs what the presented input selects, and shows that output. -/
theorem perform_selected_of_step_next {s t : State} (h : step s = .next t) :
    ∃ o, perform (selected s.clr s.presented) s.advance = .next ⟨t, o⟩ ∧ s.shown = some o := by
  obtain ⟨o, hperf, hshown⟩ := performStep_of_step_next h
  rw [performStep_of_presented (presented_ne_of_step_next h)] at hperf
  exact ⟨o, hperf, hshown⟩

/-- What a step shows agrees with the state it leads to. -/
theorem consistent_of_step_next {s t : State} (h : step s = .next t) : ∃ o, s.shown = some o ∧ o.consistent t := by
  obtain ⟨o, hperf, hshown⟩ := perform_selected_of_step_next h
  exact ⟨o, hshown, consistent_of_perform_next hperf⟩

/-- No step undoes the first INIT (R192). -/
theorem initialised_of_step_next {s t : State} (hs : s.initialised = true) (h : step s = .next t) :
    t.initialised = true := by
  obtain ⟨o, hperf, -⟩ := perform_selected_of_step_next h
  exact initialised_of_perform_next (s := s.advance) hs hperf

/-- An input that is no clock step selects a function (R71). -/
theorem isFunction_selected {clr : Bool} {x : Stimulus} (h : ∀ iw, x ≠ .clock iw) :
    isFunction (selected clr x) = true := by
  cases x with
  | clock iw => exact absurd rfl (h iw)
  | diff _ | compose _ | graylut _ | keysel _ => rfl

/-- A step at which a function is presented uses its input up and raises no event (R101, log 6). -/
theorem step_next_of_function {s t : State} (hx : ∀ iw, s.presented ≠ .clock iw) (h : step s = .next t) :
    t = s.advance ∧ s.raised = some .none := by
  obtain ⟨o, hperf, hshown⟩ := perform_selected_of_step_next h
  obtain ⟨hstate, hraised⟩ := perform_function_next (isFunction_selected hx) hperf
  exact ⟨hstate, by rw [State.raised, hshown, Option.map_some, hraised]⟩

/-- After the first INIT what is presented completes, KEYSEL's never produced pattern apart, and leaves the pending inputs
and the step count (R11). -/
theorem exec_selected_next {s : State} {x : Stimulus} (hinit : s.initialised = true)
    (hx : x ≠ .keysel deltaNeverProduced) :
    ∃ t, exec (selected s.clr x) s = .next t ∧ t.initialised = true ∧ t.stimulus = s.stimulus ∧ t.cycle = s.cycle := by
  cases x with
  | clock iw =>
    obtain ⟨t, hexec, -, -, hframe⟩ := completes_selected (.inr hinit) (inputSample iw)
    exact ⟨t, hexec, hframe⟩
  | diff _ | compose _ | graylut _ => exact ⟨s, rfl, hinit, rfl, rfl⟩
  | keysel d => exact ⟨s, exec_keysel (fun hd => hx (congrArg Stimulus.keysel hd)) s, hinit, rfl, rfl⟩

/-! ### The pending inputs and the step count have no part in a step's results -/

/-- A state with other pending inputs and another step count. -/
def State.withInputs (pending : List Stimulus) (n : Nat) (s : State) : State :=
  { s with stimulus := pending, cycle := n }

/-- States that agree on the registers and on whether an INIT has been taken differ in their inputs alone. -/
theorem State.eq_withInputs {s u : State} (hreg : s.registers = u.registers) (hinit : s.initialised = u.initialised) :
    u = s.withInputs u.stimulus u.cycle := by
  obtain ⟨p, c, b, q, n⟩ := s
  obtain ⟨p', c', b', q', n'⟩ := u
  obtain ⟨hprev, rfl⟩ := Registers.mk.inj hreg
  obtain rfl := BitVec.eq_of_toNat_eq hprev
  cases hinit
  rfl

/-- The pending inputs and the step count are not shown (R22). -/
theorem shownBy_withInputs (i : Instr) (s : State) (pending : List Stimulus) (n : Nat) :
    shownBy i (s.withInputs pending n) = shownBy i s := by
  cases i with
  | init _ _ _ => rfl
  | hold _ _ | clear _ | decode _ =>
    obtain ⟨p, c, b, q, m⟩ := s
    cases b <;> rfl
  | diff _ _ | compose _ | graylut _ | keysel _ => exact shownBy_function rfl _ _

/-- The pending inputs and the step count are carried along by every instruction (R22). -/
theorem exec_withInputs {i : Instr} {s t : State} (h : exec i s = .next t) (pending : List Stimulus) (n : Nat) :
    exec i (s.withInputs pending n) = .next (t.withInputs pending n) := by
  cases i with
  | init _ _ _ =>
    cases h
    rfl
  | hold _ _ | clear _ | decode _ =>
    obtain ⟨p, c, b, q, m⟩ := s
    cases b <;> cases h
    rfl
  | diff _ _ | compose _ | graylut _ =>
    cases h
    rfl
  | keysel d =>
    rw [exec_eq_stateOf_perform, stateOf_eq_next] at h
    obtain ⟨o, hperf⟩ := h
    obtain ⟨hd, he⟩ := performKeysel_next hperf
    cases he
    exact exec_keysel hd _

/-! ### The key that an environment is left with -/

/-- The event of a delta leaves a key held, from none, exactly where it presses one (R113, R133). -/
theorem heldAfter_keyselR113 (d : Int) : heldAfter false (keyselR113 d) = decide (d ≠ 0) := by
  obtain hneg | rfl | hpos := lt_trichotomy d 0
  · simp [keyselR113, hneg.ne, hneg, hneg.not_gt, heldAfter]
  · rfl
  · simp [keyselR113, hpos, hpos.ne', heldAfter]

/-- In R134's function without rst, CLR says whether the environment is left with a key held (R196). -/
theorem heldAfter_stepR134 (r : Registers) (tick : Bool) (smp : Sample) :
    heldAfter r.clr (stepR134 r false tick smp).2.ev = (stepR134 r false tick smp).1.clr := by
  obtain ⟨p, c⟩ := r
  cases tick with
  | false => rfl
  | true =>
    cases c with
    | true => rfl
    | false => exact heldAfter_keyselR113 _

/-! ### The statements -/

/-- Settles O44: no instruction undoes the first INIT, and each one's output agrees with its next state, row by row. -/
theorem stepKeepsInvariant : Obligations.StepKeepsInvariant := by
  unfold Obligations.StepKeepsInvariant
  exact fun s t hinv h => ⟨initialised_of_step_next hinv h, consistent_of_step_next h⟩

/-- Settles O45: a clock step is R134's function, in which CLR follows the key; a function evaluation raises nothing and
writes nothing. -/
theorem stepKeepsHeldKeyIsClr : Obligations.StepKeepsHeldKeyIsClr := by
  unfold Obligations.StepKeepsHeldKeyIsClr
  rintro s t _ hinv rfl hrst h
  by_cases hclock : ∃ iw, s.presented = .clock iw
  · obtain ⟨iw, hp⟩ := hclock
    obtain ⟨u, hstep, -, hreg, hports⟩ := step_refines_stepR134 hp (.inr hinv)
    cases h.symm.trans hstep
    rw [hrst iw hp] at hreg hports
    refine ⟨_, State.raised_of_ports hports, ?_⟩
    exact (heldAfter_stepR134 s.registers (inputTick iw) (inputSample iw)).trans (congrArg Registers.clr hreg).symm
  · obtain ⟨rfl, hraised⟩ := step_next_of_function (not_exists.mp hclock) h
    exact ⟨.none, hraised, rfl⟩

/-- Settles O46: what is presented completes on the advanced state, whose inputs are one shorter and whose count is one
higher. -/
theorem stepIsTotalAfterInit : Obligations.StepIsTotalAfterInit := by
  unfold Obligations.StepIsTotalAfterInit
  intro s hinit hp
  rw [step_of_presented hp]
  exact exec_selected_next (s := s.advance) hinit hp

/-- Settles O47: `step_refines_stepR134`, without what it adds about the first INIT. -/
theorem clockStepIsTheStepFunction : Obligations.ClockStepIsTheStepFunction := by
  unfold Obligations.ClockStepIsTheStepFunction
  intro s iw hinit hp
  obtain ⟨t, hstep, -, hreg, hports⟩ := step_refines_stepR134 hp (.inr hinit)
  exact ⟨t, hstep, hreg, hports⟩

/-- Settles O59: the two states differ in their inputs alone, which no instruction reads; and both are presented the same,
under the same CLR, so the same instruction is selected. -/
theorem outputsAreWires : Obligations.OutputsAreWires := by
  unfold Obligations.OutputsAreWires
  intro s u hreg hinit hp
  have hclr : s.clr = u.clr := congrArg Registers.clr hreg
  have hadv : u.advance = s.advance.withInputs u.advance.stimulus u.advance.cycle :=
    State.eq_withInputs (s := s.advance) (u := u.advance) hreg hinit
  by_cases hne : s.presented = .keysel deltaNeverProduced
  · refine ⟨?_, fun t h => absurd hne (presented_ne_of_step_next h)⟩
    rw [shown_of_presented_keysel_neverProduced hne, shown_of_presented_keysel_neverProduced (hp.symm.trans hne)]
  · have hne' : u.presented ≠ .keysel deltaNeverProduced := hp ▸ hne
    constructor
    · rw [shown_of_presented hne, shown_of_presented hne', ← hclr, ← hp, hadv, shownBy_withInputs]
    · intro t h
      rw [step_of_presented hne] at h
      refine ⟨t.withInputs u.advance.stimulus u.advance.cycle, ?_, rfl, rfl⟩
      rw [step_of_presented hne', ← hclr, ← hp, hadv]
      exact exec_withInputs h _ _

/-- Settles O39: a clock operation writes the registers that it completes with; a function leaves the state. -/
theorem registerWriters : Obligations.RegisterWriters := by
  unfold Obligations.RegisterWriters
  intro i s t h
  cases i with
  | init tick clr pins => exact (completes_init tick clr pins s).registers_of_exec_next h
  | hold clr pins => exact congrArg State.registers (exec_hold_next h).1
  | clear pins => exact congrArg State.registers (exec_clear_next h).1
  | decode pins => exact (completes_decode pins (initialised_of_exec_decode_next h)).registers_of_exec_next h
  | diff _ _ | compose _ | graylut _ | keysel _ => exact congrArg State.registers (exec_function_next rfl h)

/-- Settles O34: the three functions complete by definition; their results are `diff_toInt`, `compose_toNat` and
`graylut_toNat`. -/
theorem functionsShowTheirResult : Obligations.FunctionsShowTheirResult := by
  unfold Obligations.FunctionsShowTheirResult
  exact ⟨fun prev curr s => ⟨diff prev curr, rfl, rfl, diff_toInt prev curr⟩,
    fun pins s => ⟨compose pins, rfl, rfl, compose_toNat pins⟩,
    fun a s => ⟨graylut a, rfl, rfl, graylut_toNat a⟩⟩

/-- Settles O35: KEYSEL's event is that of the delta's sign by `keysel_toInt`; 0b1000 is refused before it is read. -/
theorem keyselShowsEventOrRefuses : Obligations.KeyselShowsEventOrRefuses := by
  unfold Obligations.KeyselShowsEventOrRefuses
  refine ⟨fun d s hd => ⟨exec_keysel hd s, ?_⟩, fun s => ⟨rfl, rfl⟩⟩
  rw [shownBy_keysel, ← (keysel_toInt hd).1]
  exact if_neg hd

/-- Settles O36: a function leaves the state and shows what its operands give; the step at which one is presented leads
to the advanced state. -/
theorem functionCallsChangeNothing : Obligations.FunctionCallsChangeNothing := by
  unfold Obligations.FunctionCallsChangeNothing
  refine ⟨fun i s t => exec_function_next, fun i s u hf => shownBy_function hf s u, ?_⟩
  intro s t x rest hx hstim h
  have hp : s.presented = x := by rw [State.presented, hstim]
  obtain ⟨rfl, -⟩ := step_next_of_function (hp ▸ hx) h
  exact ⟨rfl, rfl, by rw [State.advance_stimulus, hstim, List.tail_cons]⟩

/-- Settles O38: the next state and the event of a HOLD, and of a CLEAR, do not mention the pins. -/
theorem holdAndClearIgnorePins : Obligations.HoldAndClearIgnorePins := by
  unfold Obligations.HoldAndClearIgnorePins
  rintro i j clr p q s t u (⟨rfl, rfl⟩ | ⟨rfl, rfl⟩) hi hj
  · obtain ⟨rfl, hev⟩ := exec_hold_next hi
    obtain ⟨rfl, hev'⟩ := exec_hold_next hj
    exact ⟨rfl, hev.trans hev'.symm⟩
  · obtain ⟨rfl, hev⟩ := exec_clear_next hi
    obtain ⟨rfl, hev'⟩ := exec_clear_next hj
    exact ⟨rfl, hev.trans hev'.symm⟩

/-- INIT from power-on on the sample at boot leads to the reset state (R29). -/
theorem step_powerOn_lineInit_bootSample :
    step (State.powerOn.feed (lineInit Config.bootSample)) = .next State.reset := by
  have hsample : graylut (compose (pinsOfSample (inputSample (lineInit Config.bootSample)))) = State.reset.prev := by
    rw [inputSample_lineInit, compose_pinsOfSample]
    rfl
  rw [initLoadsPrevAndClearsClr.2 _ _ (State.presented_feed _ _) (inputRst_lineInit _), exec, execInit, performInit,
    hsample]
  rfl

/-- Settles O40: the INIT step from power-on, and the law of the table for PREV. -/
theorem resetIsTheInitOperation : Obligations.ResetIsTheInitOperation := by
  unfold Obligations.ResetIsTheInitOperation
  exact ⟨rfl, step_powerOn_lineInit_bootSample, congrArg (Registers.mk · false) (graylut_toNat Config.bootSample)⟩

/-- Settles O43: reset comes after an INIT, and that INIT's step shows what agrees with it, as every step does. -/
theorem invariantAtReset : Obligations.InvariantAtReset := by
  unfold Obligations.InvariantAtReset
  exact ⟨rfl, consistent_of_step_next step_powerOn_lineInit_bootSample⟩

/-- Settles O27: the report is defined event by event (R69, D17). -/
theorem eventReports : Obligations.EventReports := by
  unfold Obligations.EventReports
  exact fun cfg => ⟨rfl, rfl, rfl, rfl⟩

end Sys2Proof.Machine
end

section
/-! DIFF's residues, its counts, and the table as a Gray code (spec/40_graydiff.md R92 to R100, spec/41_sampling.md R114
to R117, spec/70_reset_and_hazards.md R200). First DIFF as a function of the residue, then samples that differ in one
pin, then the statements. -/

namespace Sys2Proof.Machine

/-! ### DIFF as a function of the residue -/

/-- What DIFF makes of a difference modulo 16: right up to 7, nothing at 8, the way round above (R98). -/
def deltaOfResidue (k : Int) : Int := if k ≤ 7 then k else if k = 8 then 0 else k - 16

/-- The five lines of R90 depend on the residue of the difference of two codes alone (R98). -/
theorem diffR90_eq_deltaOfResidue {p c : Nat} (hp : p < 16) (hc : c < 16) :
    diffR90 p c = deltaOfResidue (((c : Int) - p) % 16) := by
  unfold diffR90 deltaOfResidue
  dsimp only
  split_ifs <;> omega

/-- DIFF depends on the residue of the difference alone (R98). -/
theorem diff_toInt_eq_deltaOfResidue (prev curr : Code) :
    (diff prev curr).toInt = deltaOfResidue (((curr.toNat : Int) - prev.toNat) % 16) := by
  rw [diff_toInt, diffR90_eq_deltaOfResidue prev.isLt curr.isLt]

/-- A code moved by `n` is at the residue of `n` from where it was. -/
theorem emod_of_add_ofInt (c : Code) (n : Int) :
    (((c + BitVec.ofInt 4 n).toNat : Int) - c.toNat) % 16 = n % 16 := by
  rw [BitVec.toNat_add, BitVec.toNat_ofInt]
  omega

/-- A movement by `n` reads as the value of its residue (R100). -/
theorem diff_add_ofInt_toInt (c : Code) (n : Int) :
    (diff c (c + BitVec.ofInt 4 n)).toInt = deltaOfResidue (n % 16) := by
  rw [diff_toInt_eq_deltaOfResidue, emod_of_add_ofInt]

/-- A movement by at most 7 either way reads as itself (R100). -/
theorem diff_add_ofInt_toInt_of_le {n : Int} (hlo : -7 ≤ n) (hhi : n ≤ 7) (c : Code) :
    (diff c (c + BitVec.ofInt 4 n)).toInt = n := by
  rw [diff_add_ofInt_toInt, deltaOfResidue]
  split_ifs <;> omega

/-- DIFF is unchanged where both codes are moved by the same amount (R98). -/
theorem diff_add_add_right (prev curr n : Code) : diff (prev + n) (curr + n) = diff prev curr := by
  rw [diff_eq_masked_sub, diff_eq_masked_sub, add_sub_add_right_eq_sub]

/-- The event of a movement follows its residue: nothing at 0 and 8, one key below 8 and the other above (R113). -/
theorem keyselR113_deltaOfResidue {k : Int} (hlo : 0 ≤ k) (hhi : k < 16) :
    keyselR113 (deltaOfResidue k) = if k = 0 ∨ k = 8 then .none else if k < 8 then .pressCw else .pressCcw := by
  by_cases hnone : k = 0 ∨ k = 8
  · obtain rfl | rfl := hnone <;> rfl
  · rw [if_neg hnone]
    by_cases hlt : k < 8
    · have hd : deltaOfResidue k = k := if_pos (by omega)
      rw [hd, if_pos hlt, keyselR113, if_pos (by omega)]
    · have hd : deltaOfResidue k = k - 16 := by rw [deltaOfResidue, if_neg (by omega), if_neg (by omega)]
      rw [hd, if_neg hlt, keyselR113, if_neg (by omega), if_pos (by omega)]

/-- The residue table of R98 lists what DIFF makes of each residue. -/
theorem residueTable_eq_deltaOfResidue (k : Fin 16) :
    [0, 1, 2, 3, 4, 5, 6, 7, 0, -7, -6, -5, -4, -3, -2, -1].getD k.val 0 = deltaOfResidue k.val := by
  revert k
  decide

/-- Of the 256 pairs of codes, 32 are at a residue that reads as 0 and 16 at each other value (R93). -/
theorem length_filter_deltaOfResidue (d : Fin 15) :
    ((List.range 256).filter fun n =>
        deltaOfResidue (((n % 2 ^ 4 : Nat) - (n / 16 % 2 ^ 4 : Nat) : Int) % 16) = (d.val : Int) - 7).length
      = if d.val = 7 then 32 else 16 := by
  revert d
  decide

/-! ### Samples that differ in one pin -/

/-- Two samples that differ in one pin, read pin by pin with some pins old and some new, give the old one or the new one:
it is the one that the pin in question was read from (R200). -/
theorem mixed_read_eq_old_or_new {old new : Sample} (mixed : Sample) {b : Fin 4} (h : old ^^^ new = 1#4 <<< b.val) :
    (old &&& mixed) ||| (new &&& ~~~mixed) = old ∨ (old &&& mixed) ||| (new &&& ~~~mixed) = new := by
  have hsame (i : Nat) (hi : i < 4) (hne : i ≠ b.val) : old[i] = new[i] := by
    have hbit := congrArg (·[i]) h
    obtain hlt | hgt := lt_or_gt_of_ne hne
    · simpa [hlt] using hbit
    · simpa [hgt.not_gt, Nat.sub_ne_zero_of_lt hgt] using hbit
  have hother (i : Nat) (hi : i < 4) (hne : i ≠ b.val) :
      ((old &&& mixed) ||| (new &&& ~~~mixed))[i] = new[i] := by
    simp [hsame i hi hne, ← Bool.and_or_distrib_left]
  cases hpin : mixed[b.val] with
  | true =>
    refine .inl (BitVec.eq_of_getElem_eq fun i hi => ?_)
    by_cases hi' : i = b.val
    · simp [hi', hpin]
    · rw [hother i hi hi', hsame i hi hi']
  | false =>
    refine .inr (BitVec.eq_of_getElem_eq fun i hi => ?_)
    by_cases hi' : i = b.val
    · simp [hi', hpin]
    · exact hother i hi hi'

/-- The samples of neighbouring codes differ in one pin, the wrap included (R116). -/
theorem sampleOfCode_succ_differs_in_one_pin (c : Code) :
    ∃ b : Fin 4, sampleOfCode c ^^^ sampleOfCode (c + 1#4) = 1#4 <<< b.val := by
  revert c
  decide

/-! ### The statements -/

/-- Settles O18: a movement reads as the value of its residue, and in [−7, 7] that is the movement itself. -/
theorem multiStepMovementAliases : Obligations.MultiStepMovementAliases := by
  unfold Obligations.MultiStepMovementAliases
  exact fun c n => ⟨fun ⟨hlo, hhi⟩ => diff_add_ofInt_toInt_of_le hlo hhi c, diff_add_ofInt_toInt c n⟩

/-- Settles O11: the law `diff_eq_masked_sub` is the hardware form. -/
theorem diffHardwareFormAgrees : Obligations.DiffHardwareFormAgrees := by
  unfold Obligations.DiffHardwareFormAgrees
  exact diff_eq_masked_sub

/-- Settles O12: the range by the bounds of R90; the count by evaluation of the residues of the 256 pairs. -/
theorem diffRangeAndCounts : Obligations.DiffRangeAndCounts := by
  unfold Obligations.DiffRangeAndCounts
  constructor
  · intro prev curr
    rw [diff_toInt]
    exact diffR90_bounds prev curr
  · intro d
    rw [← length_filter_deltaOfResidue d]
    refine congrArg List.length (List.filter_congr fun n _ => ?_)
    rw [diff_toInt_eq_deltaOfResidue, BitVec.toNat_ofNat, BitVec.toNat_ofNat]

/-- Settles O14: DIFF is 0 where its integer value is, and that is 0 at the residues 0 and 8 alone. -/
theorem diffZeroExactly : Obligations.DiffZeroExactly := by
  unfold Obligations.DiffZeroExactly
  refine ⟨diff_self, fun prev curr => ?_⟩
  rw [← BitVec.toInt_inj, diff_toInt_eq_deltaOfResidue, BitVec.toInt_zero, deltaOfResidue]
  split_ifs <;> omega

/-- Settles O16: DIFF as a function of the residue, entry by entry; and a rotation leaves the 4-bit difference. -/
theorem diffResidueTable : Obligations.DiffResidueTable := by
  unfold Obligations.DiffResidueTable
  refine ⟨fun prev curr => ?_, diff_add_add_right⟩
  have hk : (((curr.toNat : Int) - prev.toNat) % 16).toNat < 16 := by omega
  rw [residueTable_eq_deltaOfResidue ⟨_, hk⟩, Int.toNat_of_nonneg (by omega), diff_toInt_eq_deltaOfResidue]

/-- Settles O17: the unit steps are movements by 1 and −1; the deltas in table order by evaluation. -/
theorem unitStepsAndTableOrder : Obligations.UnitStepsAndTableOrder := by
  unfold Obligations.UnitStepsAndTableOrder
  refine ⟨fun c => ⟨diff_add_ofInt_toInt_of_le (n := 1) (by decide) (by decide) c, ?_⟩, by decide⟩
  have hback : c - 1#4 = c + BitVec.ofInt 4 (-1) := BitVec.sub_eq_add_neg c 1#4
  rw [hback]
  exact diff_add_ofInt_toInt_of_le (n := -1) (by decide) (by decide) c

/-- Settles O20: the law `graylut_sampleOfCode`, and the other direction by evaluation of the sixteen samples. -/
theorem tableIsPermutation : Obligations.TableIsPermutation := by
  unfold Obligations.TableIsPermutation
  exact ⟨graylut_sampleOfCode, by decide⟩

/-- Settles O21: evaluation of both sides at the sixteen samples. -/
theorem tableClosedForm : Obligations.TableClosedForm := by
  unfold Obligations.TableClosedForm
  decide

/-- Settles O22: neighbouring codes' samples differ in one pin, and a read during the change sees that pin old or new. -/
theorem singleBitCycle : Obligations.SingleBitCycle := by
  unfold Obligations.SingleBitCycle
  refine ⟨sampleOfCode_succ_differs_in_one_pin, fun c mixed => ?_⟩
  obtain ⟨b, hb⟩ := sampleOfCode_succ_differs_in_one_pin c
  exact mixed_read_eq_old_or_new mixed hb

/-- Settles O23: evaluation of the sixteen samples and four pins. -/
theorem singlePinFlipDeltas : Obligations.SinglePinFlipDeltas := by
  unfold Obligations.SinglePinFlipDeltas
  decide

end Sys2Proof.Machine
end

section
/-! Runs of any length on input words (spec/42_poller.md R131, R134, R136, spec/70_reset_and_hazards.md R194 to R198,
spec/10_state.md R30). First runs of R134's function, then the machine's runs as its refinement and the events of their
ticks, then the statements; at the end the environment's time gate (spec/60_exceptions.md R170). -/

namespace Sys2Proof.Machine

/-! ### Runs of R134's function -/

/-- A run on two sequences of words one after the other. -/
theorem runR134_append (xs ys : List InputWord) (r : Registers) :
    runR134 (xs ++ ys) r
      = ((runR134 ys (runR134 xs r).1).1, (runR134 xs r).2 ++ (runR134 ys (runR134 xs r).1).2) := by
  induction xs generalizing r with
  | nil => rfl
  | cons iw rest ih => simp only [List.cons_append, runR134, ih]

/-- A run shows the ports once per word. -/
theorem length_runR134 (words : List InputWord) (r : Registers) : (runR134 words r).2.length = words.length := by
  induction words generalizing r with
  | nil => rfl
  | cons iw rest ih => simp [runR134, ih]

/-- HOLD leaves both registers and raises NONE (R131). -/
theorem stepR134_hold (r : Registers) (smp : Sample) :
    (stepR134 r false false smp).1 = r ∧ (stepR134 r false false smp).2.ev = .none := ⟨rfl, rfl⟩

/-- Any number of HOLD steps leaves both registers and raises nothing but NONE (R131). -/
theorem runR134_holds {words : List InputWord} (h : ∀ iw ∈ words, inputRst iw = false ∧ inputTick iw = false)
    (r : Registers) :
    (runR134 words r).1 = r ∧ (runR134 words r).2.map Ports.ev = List.replicate words.length .none := by
  induction words with
  | nil => exact ⟨rfl, rfl⟩
  | cons iw rest ih =>
    obtain ⟨⟨hrst, htick⟩, hrest⟩ := List.forall_mem_cons.mp h
    obtain ⟨hreg, hev⟩ := stepR134_hold r (inputSample iw)
    obtain ⟨hreg', hev'⟩ := ih hrest
    simp [runR134, hrst, htick, hreg, hev, hreg', hev', List.replicate_succ]

/-- After HOLD steps the last word of a run acts as if it came first (R198). -/
theorem runR134_holds_append {idle : List InputWord} (h : ∀ iw ∈ idle, inputRst iw = false ∧ inputTick iw = false)
    (last : InputWord) (r : Registers) :
    (runR134 (idle ++ [last]) r).1 = (stepR134 r (inputRst last) (inputTick last) (inputSample last)).1
      ∧ (runR134 (idle ++ [last]) r).2.getLast?
        = some (stepR134 r (inputRst last) (inputTick last) (inputSample last)).2 := by
  rw [runR134_append, (runR134_holds h r).1]
  exact ⟨rfl, List.getLast?_concat⟩

/-! ### The machine's runs refine them -/

/-- The ports of a run begin with those of its first step. -/
theorem portsOfRun_cons_of_step {iw : InputWord} {rest : List InputWord} {s t : State}
    (h : step (s.feed iw) = .next t) :
    portsOfRun (iw :: rest) s = (s.feed iw).ports.toList ++ portsOfRun rest t := by
  simp only [portsOfRun, h]

/-- A run of the machine after the first INIT is the run of R134's function from its registers: the registers at the end
and the ports of every step. -/
theorem runWords_refines_runR134 (words : List InputWord) {s : State} (hinit : s.initialised = true) :
    ∃ t, runWords words s = some t ∧ t.initialised = true ∧ t.registers = (runR134 words s.registers).1
      ∧ portsOfRun words s = (runR134 words s.registers).2 := by
  induction words generalizing s with
  | nil => exact ⟨s, rfl, hinit, rfl, rfl⟩
  | cons iw rest ih =>
    obtain ⟨t, hstep, htinit, hreg, hports⟩ := step_refines_stepR134 (State.presented_feed iw s) (.inr hinit)
    rw [State.feed_registers] at hreg hports
    obtain ⟨u, hrun, huinit, hureg, huports⟩ := ih htinit
    rw [hreg] at hureg huports
    refine ⟨u, (runWords_cons_of_step hstep).trans hrun, huinit, hureg, ?_⟩
    rw [portsOfRun_cons_of_step hstep, hports, huports]
    rfl

/-! ### The events of the ticks -/

/-- On a tick without rst a press is what sets CLR (R132, R133). -/
theorem isPress_stepR134_tick (r : Registers) (smp : Sample) :
    (stepR134 r false true smp).2.ev.isPress = (stepR134 r false true smp).1.clr := by
  obtain ⟨p, c⟩ := r
  cases c with
  | true => rfl
  | false =>
    change (keyselR113 _).isPress = decide (_ ≠ _)
    by_cases hzero : diffR90 p (codeR111 smp) = 0
    · simp [hzero, keyselR113, Event.isPress]
    · simp [hzero, keyselR113_isPress hzero]

/-- On a tick without rst, RELEASE is raised exactly where it is owed (R132, R133). -/
theorem stepR134_tick_release_iff (r : Registers) (smp : Sample) :
    (stepR134 r false true smp).2.ev = .release ↔ r.clr = true := by
  obtain ⟨p, c⟩ := r
  cases c with
  | true => exact iff_of_true rfl rfl
  | false => exact iff_of_false (keyselR113_ne_release _) Bool.false_ne_true

/-- The first step of a run without INIT: without tick it leaves CLR and raises no tick event; on a tick it raises one,
which is RELEASE exactly when that is owed, and a press exactly when it makes the next one owed. -/
theorem tickEvents_cons {iw : InputWord} {s : State} (hinit : s.initialised = true) (hrst : inputRst iw = false)
    (rest : List InputWord) :
    ∃ t, t.initialised = true
      ∧ (inputTick iw = false → t.clr = s.clr ∧ tickEvents (iw :: rest) s = tickEvents rest t)
      ∧ (inputTick iw = true → ∃ ev, tickEvents (iw :: rest) s = ev :: tickEvents rest t
        ∧ (ev = .release ↔ s.clr = true) ∧ ev.isPress = t.clr) := by
  obtain ⟨t, hstep, htinit, hreg, hports⟩ := step_refines_stepR134 (State.presented_feed iw s) (.inr hinit)
  have hraised := State.raised_of_ports hports
  rw [hrst, State.feed_registers] at hreg hraised
  have hclr : t.clr = _ := congrArg Registers.clr hreg
  refine ⟨t, htinit, fun htick => ?_, fun htick => ?_⟩ <;> rw [htick] at hclr hraised
  · exact ⟨hclr, by rw [tickEvents_cons_of_step hstep, htick]; rfl⟩
  · refine ⟨_, ?_, stepR134_tick_release_iff s.registers (inputSample iw), ?_⟩
    · rw [tickEvents_cons_of_step hstep, htick, hraised]
      rfl
    · rw [hclr, isPress_stepR134_tick]

/-- In a run without INIT the tick events alternate as R136 has it, begin with RELEASE exactly when that is owed, and are
as many as the ticks. -/
theorem tickEvents_alternate {words : List InputWord} {s : State} (hinit : s.initialised = true)
    (hwords : ∀ iw ∈ words, inputRst iw = false) :
    (tickEvents words s).IsChain releaseFollowsPress
      ∧ (∀ e, (tickEvents words s).head? = some e → (e = .release ↔ s.clr = true))
      ∧ (tickEvents words s).length = (words.filter inputTick).length := by
  induction words generalizing s with
  | nil => exact ⟨List.IsChain.nil, by simp [tickEvents], rfl⟩
  | cons iw rest ih =>
    obtain ⟨hrst, hrest⟩ := List.forall_mem_cons.mp hwords
    obtain ⟨t, htinit, hidle, htick⟩ := tickEvents_cons hinit hrst rest
    obtain ⟨hchain, hhead, hlen⟩ := ih htinit hrest
    cases hw : inputTick iw with
    | false =>
      obtain ⟨hclr, hevents⟩ := hidle hw
      rw [hevents, ← hclr, List.filter_cons_of_neg (by simp [hw])]
      exact ⟨hchain, hhead, hlen⟩
    | true =>
      obtain ⟨ev, hevents, hrelease, hpress⟩ := htick hw
      rw [hevents, List.filter_cons_of_pos hw]
      refine ⟨List.isChain_cons.mpr ⟨fun e he => ?_, hchain⟩, ?_, congrArg Nat.succ hlen⟩
      · rw [releaseFollowsPress, hpress]
        exact hhead e he
      · rintro e ⟨⟩
        exact hrelease

/-- One event more counts as one press more, or as none. -/
theorem pressCount_cons (e : Event) (events : List Event) :
    pressCount (e :: events) = pressCount events + if e.isPress then 1 else 0 := by
  unfold pressCount
  rw [List.filter_cons]
  split_ifs <;> rfl

/-- Where a release follows every press, at most every other event is a press (R196). -/
theorem two_mul_pressCount_le : ∀ {events : List Event}, events.IsChain releaseFollowsPress →
    2 * pressCount events ≤ events.length + 1
  | [], _ => Nat.zero_le _
  | [e], _ => by cases e <;> decide
  | a :: b :: rest, h => by
    obtain ⟨hab, hrest⟩ := List.isChain_cons_cons.mp h
    cases ha : a.isPress with
    | false =>
      have hcount : pressCount (a :: b :: rest) = pressCount (b :: rest) := by
        rw [pressCount_cons, if_neg (Bool.eq_false_iff.mp ha), Nat.add_zero]
      rw [hcount]
      exact (two_mul_pressCount_le hrest).trans (Nat.le_succ _)
    | true =>
      obtain rfl : b = .release := hab.mpr ha
      have hcount : pressCount (a :: .release :: rest) = pressCount rest + 1 := by
        rw [pressCount_cons, pressCount_cons, if_pos ha]
        rfl
      have hle : 2 * pressCount rest ≤ rest.length + 1 := two_mul_pressCount_le hrest.tail
      rw [hcount, List.length_cons, List.length_cons]
      omega

/-! ### The sample of a code -/

/-- The inverse table gives each code a sample (R114). -/
@[simp] theorem codeR111_sampleOfCode (c : Code) : codeR111 (sampleOfCode c) = c.toNat := by
  rw [← graylut_toNat, graylut_sampleOfCode]

/-- The codes of the table are below 16. -/
theorem codeR111_lt (smp : Sample) : codeR111 smp < 16 := by
  rw [← graylut_toNat]
  exact (graylut smp).isLt

/-! ### The statements -/

/-- Settles O48: `runWords_refines_runR134`, by induction over the words. -/
theorem runsRefineTheStepFunction : Obligations.RunsRefineTheStepFunction := by
  unfold Obligations.RunsRefineTheStepFunction
  exact fun words s => runWords_refines_runR134 words

/-- Settles O54: the machine's run is that of R134's function, whose HOLD steps leave the registers. -/
theorem holdStepsChangeNothing : Obligations.HoldStepsChangeNothing := by
  unfold Obligations.HoldStepsChangeNothing
  intro words s hinit hholds
  obtain ⟨t, hrun, htinit, hreg, hports⟩ := runWords_refines_runR134 words hinit
  obtain ⟨hsame, hnone⟩ := runR134_holds hholds s.registers
  exact ⟨t, hrun, hreg.trans hsame, htinit, by rw [hports, hnone]⟩

/-- Settles O55: either run ends as the one step on the last word from the registers at the start. -/
theorem pinsBetweenSamplesLeaveNoTrace : Obligations.PinsBetweenSamplesLeaveNoTrace := by
  unfold Obligations.PinsBetweenSamplesLeaveNoTrace
  intro idle idle' iw s hinit hholds
  obtain ⟨hidle, hidle'⟩ := List.forall_mem_append.mp hholds
  obtain ⟨t, hrun, -, hreg, hports⟩ := runWords_refines_runR134 (idle ++ [iw]) hinit
  obtain ⟨u, hrun', -, hreg', hports'⟩ := runWords_refines_runR134 (idle' ++ [iw]) hinit
  obtain ⟨hend, hlast⟩ := runR134_holds_append hidle iw s.registers
  obtain ⟨hend', hlast'⟩ := runR134_holds_append hidle' iw s.registers
  refine ⟨t, u, hrun, hrun', ?_, ?_, ?_⟩
  · rw [hreg, hreg', hend, hend']
  · rw [hports, hports', hlast, hlast']
  · rw [hports, length_runR134, List.length_append, List.length_singleton]

/-- Settles O50: `tickEvents_alternate`, by induction over the words. -/
theorem pressThenRelease : Obligations.PressThenRelease := by
  unfold Obligations.PressThenRelease
  exact fun words s => tickEvents_alternate

/-- Settles O51: the tick events alternate and are as many as the ticks, so at most every other tick presses. -/
theorem pressRate : Obligations.PressRate := by
  unfold Obligations.PressRate
  intro words s hinit hwords
  obtain ⟨hchain, -, hlen⟩ := tickEvents_alternate hinit hwords
  rw [← hlen]
  exact two_mul_pressCount_le hchain

/-- Settles O56: the clear tick keeps PREV, so the tick after it compares with the code from before; its event follows
the residue. -/
theorem clearTickMovementReportedLate : Obligations.ClearTickMovementReportedLate := by
  unfold Obligations.ClearTickMovementReportedLate
  intro s during after hinit hclr
  have hreg : s.registers = ⟨s.prev.toNat, true⟩ := by rw [State.registers, hclr]
  obtain ⟨t, hstep, htinit, ht, hev⟩ := tick_keyDown hinit hreg during
  obtain ⟨u, hstep', -, hu, hev'⟩ := tick_idle htinit ht after
  rw [diffR90_eq_deltaOfResidue s.prev.isLt (codeR111_lt after),
    keyselR113_deltaOfResidue (by omega) (by omega)] at hev'
  exact ⟨t, u, hstep, hev, ht, hstep', congrArg Registers.prev hu, hev'⟩

/-- Settles O58: for CLR 0 an INIT at the code's sample; for CLR 1 an INIT one code above it and a tick at the code, which
is a movement by −1 and so a press. -/
theorem everyRegisterValueReachable : Obligations.EveryRegisterValueReachable := by
  unfold Obligations.EveryRegisterValueReachable
  intro s p c
  have hload (q : Code) : ∃ t, step (s.feed (lineInit (sampleOfCode q))) = .next t ∧ t.initialised = true
      ∧ t.registers = ⟨q.toNat, false⟩ := by
    obtain ⟨t, hstep, hinit, hreg, -⟩ := step_init (State.presented_feed _ s) (inputRst_lineInit (sampleOfCode q))
    exact ⟨t, hstep, hinit, by simpa using hreg⟩
  cases c with
  | false =>
    obtain ⟨t, hstep, hinit, hreg⟩ := hload p
    exact ⟨_, [], t, inputRst_lineInit _, runWords_cons_of_step hstep, hinit, hreg⟩
  | true =>
    obtain ⟨t, hstep, hinit, hreg⟩ := hload (p + 1#4)
    obtain ⟨u, hstep', huinit, hureg, -⟩ := tick_idle hinit hreg (sampleOfCode p)
    have hdelta : diffR90 (p + 1#4).toNat p.toNat = -1 := by
      refine diffR90_of_unit_step (up := false) (p + 1#4).isLt ?_
      have hp := p.isLt
      simp only [BitVec.toNat_add, BitVec.toNat_ofNat, Bool.false_eq_true, if_false]
      omega
    rw [codeR111_sampleOfCode, hdelta] at hureg
    exact ⟨_, [_], u, inputRst_lineInit _, (runWords_cons_of_step hstep).trans (runWords_cons_of_step hstep'), huinit,
      hureg⟩

/-! ### The environment's time gate -/

/-- A pass `m` below the counter's modulus after the deadline decides on `m` itself (R170, log 16). -/
theorem timeGate_add_ofNat (cfg : Config) {w m : Nat} (deadline : BitVec w) (hm : m < 2 ^ w) :
    timeGate cfg (deadline + BitVec.ofNat w m) deadline
      = if m < cfg.tickMs then ⟨false, deadline⟩ else ⟨true, deadline + BitVec.ofNat w cfg.tickMs⟩ := by
  rw [timeGate, add_sub_cancel_left, BitVec.toNat_ofNat, Nat.mod_eq_of_lt hm]

/-- Settles O60: closed, the deadline is left; open, the interval is no longer than the lateness, so the subtraction of it
does not wrap. -/
theorem timeGateAddsOneInterval : Obligations.TimeGateAddsOneInterval := by
  unfold Obligations.TimeGateAddsOneInterval
  intro cfg w m deadline hm
  dsimp only
  rw [timeGate_add_ofNat cfg deadline hm]
  split_ifs with hlate
  · simp [hlate]
  · have hle : cfg.tickMs ≤ m := not_lt.mp hlate
    have hleft : (deadline + BitVec.ofNat w m - (deadline + BitVec.ofNat w cfg.tickMs)).toNat = m - cfg.tickMs := by
      rw [add_sub_add_left_eq_sub, BitVec.ofNat_sub_ofNat_of_le _ _ (by omega) hle, BitVec.toNat_ofNat,
        Nat.mod_eq_of_lt (by omega)]
    exact ⟨by simp [hle], fun _ => hleft, by simp⟩

end Sys2Proof.Machine
end
